-- ==== Sys2Proof/Word.lean ====
section
/-! DEFINITION. The word types of LSFX (00_scope.md R11; 30_encoding.md R91, R93): numbers of a stated
width. They have no byte order (20_memory.md R66), so no byte layout is defined anywhere. -/

namespace Sys2Proof

/-- A command word `CW` or a response word `RW`: 32 bits (R90, R91, R93). -/
abbrev Word := BitVec 32

/-- The 24 bits of ARG, of DATA, and of a bit index (R91, R92, R93). -/
abbrev Data := BitVec 24

/-- 16 bits: a byte index, a byte count, or a CRC (R24, R26, R163). -/
abbrev Half := BitVec 16

/-- One byte of the frame (R24). -/
abbrev Byte := BitVec 8

end Sys2Proof
end

