-- ==== Sys2Proof/Syntax.lean ====
section
/-! DEFINITION. The twelve commands of LSFX (30_encoding.md R96), one constructor per row of the opcode
table, each with the operand its format carries (R94, R95). -/

namespace Sys2Proof

/-- A command with its operand. Operands have exactly the width of their field (R94), so every term is a
command the encoding can express. -/
inductive Instr where
  /-- NOP, format Z (43_control.md R191). -/
  | nop
  /-- INIT, format Z (43_control.md R192). -/
  | init
  /-- CAPT, format B: capture the label `b` (40_capture.md R121). -/
  | capt (b : Bool)
  /-- SETPOL, format B: commit the polarity `b` (40_capture.md R123). -/
  | setpol (b : Bool)
  /-- SETMAXB, format H: set the byte cap to `h` (41_extract.md R141). -/
  | setmaxb (h : Half)
  /-- EXTRACT, format I: extract a frame at bit index `idx` (41_extract.md R143). -/
  | extract (idx : Data)
  /-- VALIDATE, format Z (42_validate.md R166). -/
  | validate
  /-- RDBIT, format I: read the committed bit `idx` (40_capture.md R125). -/
  | rdbit (idx : Data)
  /-- RDFRAME, format H: read frame byte `h` (41_extract.md R147). -/
  | rdframe (h : Half)
  /-- RDBODY, format H: read body byte `h` (42_validate.md R170). -/
  | rdbody (h : Half)
  /-- RDREG, format R: read register number `r` (43_control.md R194). -/
  | rdreg (r : BitVec 4)
  /-- CLRERR, format M: clear the ERR bits of the mask `m` (43_control.md R196). -/
  | clrerr (m : BitVec 3)
  deriving DecidableEq, Repr

end Sys2Proof
end

