-- ==== Sys2Proof/WellFormed.lean ====
section
/-! DEFINITION. When a command as written (a mnemonic and a number) names a command word
(30_encoding.md R102): "An operand outside the range in brackets cannot be written as a command word of
that row; an assembler refuses it." A term of `Instr` is well formed by its types; the check is on the
written command. -/

namespace Sys2Proof

/-- The twelve mnemonics, the rows of R96. -/
inductive Mnemonic where
  | nop | init | capt | setpol | setmaxb | extract | validate | rdbit | rdframe | rdbody | rdreg | clrerr
  deriving DecidableEq, Repr

/-- A command as written: a mnemonic, and an operand if it has one (R102). -/
structure CommandText where
  mnemonic : Mnemonic
  operand : Option Nat
  deriving DecidableEq, Repr

/-- One more than the largest operand of the row, as R102's brackets give it; `none` where the row has no
operand. -/
def Mnemonic.operandBound : Mnemonic → Option Nat
  | .nop | .init | .validate => none
  | .capt | .setpol => some 2
  | .setmaxb | .rdframe | .rdbody => some 65536
  | .extract | .rdbit => some (2 ^ 24)
  | .rdreg => some 16
  | .clrerr => some 8

/-- The check of R102: an operand exactly where the row has one, and in its range. -/
def CommandText.wellFormed (t : CommandText) : Bool :=
  match t.mnemonic.operandBound, t.operand with
  | none, none => true
  | some bound, some n => decide (n < bound)
  | _, _ => false

/-- The row of a command. -/
def Instr.mnemonic : Instr → Mnemonic
  | .nop => .nop
  | .init => .init
  | .capt _ => .capt
  | .setpol _ => .setpol
  | .setmaxb _ => .setmaxb
  | .extract _ => .extract
  | .validate => .validate
  | .rdbit _ => .rdbit
  | .rdframe _ => .rdframe
  | .rdbody _ => .rdbody
  | .rdreg _ => .rdreg
  | .clrerr _ => .clrerr

/-- A command written out (R102). -/
def Instr.text (i : Instr) : CommandText where
  mnemonic := i.mnemonic
  operand := match i with
    | .nop | .init | .validate => none
    | .capt b | .setpol b => some b.toNat
    | .setmaxb h | .rdframe h | .rdbody h => some h.toNat
    | .extract idx | .rdbit idx => some idx.toNat
    | .rdreg r => some r.toNat
    | .clrerr m => some m.toNat

/-- A command is well formed when its written form is (R102). -/
def Instr.wellFormed (i : Instr) : Bool := i.text.wellFormed

end Sys2Proof
end

