-- ==== Sys2Proof/Decode.lean ====
section
/-! DEFINITION. The decoder, total on all 2^32 words (30_encoding.md R97), the encoder written from the
same tables (R91, R94, R96), and the meaning of a written command as a command (R102). -/

namespace Sys2Proof

/-- The operand formats of R94. -/
inductive Format where
  | z | b | h | i | r | m
  deriving DecidableEq, Repr

/-- Why a word is illegal, in the order R97 checks (60_exceptions.md R213). All three raise Fault(1). -/
inductive IllegalReason where
  /-- OP is 0xC to 0xF (R98). -/
  | reservedOpcode
  /-- RSV is not 0 (R99). -/
  | rsvNotZero
  /-- A reserved ARG bit of the row's format is set (R99). -/
  | reservedArgBit
  deriving DecidableEq, Repr

/-- The verdict of the decoder on a word. -/
inductive Decoded where
  | command (i : Instr)
  | illegal (why : IllegalReason)
  deriving DecidableEq, Repr

/-- OP, bits 31:28 (R91). -/
def opField (w : Word) : BitVec 4 := w.extractLsb' 28 4

/-- RSV, bits 27:24 (R91). -/
def rsvField (w : Word) : BitVec 4 := w.extractLsb' 24 4

/-- ARG, bits 23:0 (R91). -/
def argField (w : Word) : Data := w.extractLsb' 0 24

/-- The width of the operand field, which starts at ARG bit 0 in every format (R94). -/
def Format.operandBits : Format → Nat
  | .z => 0
  | .b => 1
  | .h => 16
  | .i => 24
  | .r => 4
  | .m => 3

/-- Whether a reserved bit of ARG, one outside the operand field, is 1 (R94). -/
def Format.reservedBitSet (f : Format) (arg : Data) : Bool := arg >>> f.operandBits != 0

/-- The opcode of each row (R96). -/
def Mnemonic.opcode : Mnemonic → BitVec 4
  | .nop => 0x0
  | .init => 0x1
  | .capt => 0x2
  | .setpol => 0x3
  | .setmaxb => 0x4
  | .extract => 0x5
  | .validate => 0x6
  | .rdbit => 0x7
  | .rdframe => 0x8
  | .rdbody => 0x9
  | .rdreg => 0xA
  | .clrerr => 0xB

/-- The row an opcode selects; 0xC to 0xF are reserved (R96, R98). -/
def Mnemonic.ofOpcode? (op : BitVec 4) : Option Mnemonic :=
  match op.toNat with
  | 0x0 => some .nop
  | 0x1 => some .init
  | 0x2 => some .capt
  | 0x3 => some .setpol
  | 0x4 => some .setmaxb
  | 0x5 => some .extract
  | 0x6 => some .validate
  | 0x7 => some .rdbit
  | 0x8 => some .rdframe
  | 0x9 => some .rdbody
  | 0xA => some .rdreg
  | 0xB => some .clrerr
  | _ => none

/-- The format of each row (R94, R96). -/
def Mnemonic.format : Mnemonic → Format
  | .nop | .init | .validate => .z
  | .capt | .setpol => .b
  | .setmaxb | .rdframe | .rdbody => .h
  | .extract | .rdbit => .i
  | .rdreg => .r
  | .clrerr => .m

/-- The command of a row with the operand that ARG carries: the unsigned value of the field as it stands
(R94, R95). -/
def Mnemonic.withArg (m : Mnemonic) (arg : Data) : Instr :=
  match m with
  | .nop => .nop
  | .init => .init
  | .capt => .capt (arg.getLsbD 0)
  | .setpol => .setpol (arg.getLsbD 0)
  | .setmaxb => .setmaxb (arg.extractLsb' 0 16)
  | .extract => .extract arg
  | .validate => .validate
  | .rdbit => .rdbit arg
  | .rdframe => .rdframe (arg.extractLsb' 0 16)
  | .rdbody => .rdbody (arg.extractLsb' 0 16)
  | .rdreg => .rdreg (arg.extractLsb' 0 4)
  | .clrerr => .clrerr (arg.extractLsb' 0 3)

/-- The decoder of R97, its checks in R97's order. -/
def decode (w : Word) : Decoded :=
  match Mnemonic.ofOpcode? (opField w) with
  | none => .illegal .reservedOpcode
  | some m =>
    if rsvField w ≠ 0 then .illegal .rsvNotZero
    else if m.format.reservedBitSet (argField w) then .illegal .reservedArgBit
    else .command (m.withArg (argField w))

/-- The decoder on a word numbered as spec/opcode_table.json numbers it. There is one command length,
32 bits (R101); the bits above `nbits` are 0. -/
def decodeTableWord (nbits w : Nat) : Option Instr :=
  if nbits ≤ 32 then
    match decode (BitVec.ofNat 32 (w % 2 ^ nbits)) with
    | .command i => some i
    | .illegal _ => none
  else none

/-- The operand of a command in its field of ARG, the reserved bits 0 (R94). -/
def Instr.arg : Instr → Data
  | .nop | .init | .validate => 0
  | .capt b | .setpol b => (BitVec.ofBool b).setWidth 24
  | .setmaxb h | .rdframe h | .rdbody h => h.setWidth 24
  | .extract idx | .rdbit idx => idx
  | .rdreg r => r.setWidth 24
  | .clrerr m => m.setWidth 24

/-- The command word of a command: OP, RSV = 0, ARG (R91, R96). -/
def encode (i : Instr) : Word := i.mnemonic.opcode ++ (0#4 ++ i.arg)

/-- The `mask` column of R96. -/
def Mnemonic.maskWord : Mnemonic → Word
  | .nop | .init | .validate => 0xFFFFFFFF
  | .capt | .setpol => 0xFFFFFFFE
  | .setmaxb | .rdframe | .rdbody => 0xFFFF0000
  | .extract | .rdbit => 0xFF000000
  | .rdreg => 0xFFFFFFF0
  | .clrerr => 0xFFFFFFF8

/-- The `match` column of R96. -/
def Mnemonic.matchWord : Mnemonic → Word
  | .nop => 0x00000000
  | .init => 0x10000000
  | .capt => 0x20000000
  | .setpol => 0x30000000
  | .setmaxb => 0x40000000
  | .extract => 0x50000000
  | .validate => 0x60000000
  | .rdbit => 0x70000000
  | .rdframe => 0x80000000
  | .rdbody => 0x90000000
  | .rdreg => 0xA0000000
  | .clrerr => 0xB0000000

/-- The command a written command stands for; an ill-formed one is refused (R102). -/
def CommandText.instr? (t : CommandText) : Option Instr :=
  if t.wellFormed then some (t.mnemonic.withArg (BitVec.ofNat 24 (t.operand.getD 0))) else none

end Sys2Proof
end

