-- ==== Sys2Proof/Config.lean ====
section
/-! DEFINITION. What one implementation of LSFX fixes (00_scope.md R9), the constants the spec says a
model hard-codes (R8), and the named constants of the host-side procedures (R10). The spec leaves no
value free, so there is no opaque constant here (DEDUCED, log entry 12). -/

namespace Sys2Proof

/-- The parameters of one LSFX (R9). Their widths are those of the registers that show them (R38), so
`LDEPTH <= 2^24 - 1` and `FDEPTH <= 65,535` hold by type (DESIGN CHOICE, log entry 6). -/
structure Config where
  /-- LDEPTH: the number of 1-bit cells of the label store. -/
  ldepth : Data
  /-- FDEPTH: the number of byte cells of the frame buffer, the largest legal MAXB. -/
  fdepth : Half
  deriving DecidableEq, Repr

/-- The lower bounds of R9; the upper ones hold by type. -/
abbrev Config.Valid (c : Config) : Prop := 1 ≤ c.ldepth.toNat ∧ 1 ≤ c.fdepth.toNat

/-- The defaults of R9: 2^20 labels, 10,000 bytes. -/
def Config.default : Config where
  ldepth := 1048576
  fdepth := 10000

/-- Bits of one character: start bit, eight data bits, stop bit (R8). -/
def charBits : Nat := 10

/-- The trailer is two bytes (R8). -/
def trailerBytes : Nat := 2

/-- The shortest frame the validator accepts (R8). -/
def minFrameBytes : Nat := 3

/-- The CRC polynomial (R8). -/
def crcPoly : Half := 0x1021

/-- `INIT_v` of R165: 0x0000 for the first checksum variant, 0xFFFF for the second. -/
def crcInit (second : Bool) : Half := if second then 0xFFFF else 0x0000

/-- The identification word, register 0 (10_state.md R38). -/
def idWord : Data := 0x4C5301

/-- The constants of R10 that the host-side procedures of R227 to R230 use; all are outside LSFX. -/
structure HostParams where
  /-- PREAMBLE_THRESHOLD. -/
  preambleThreshold : Nat := 8
  /-- NOMINAL_PREAMBLE. -/
  nominalPreamble : Nat := 12
  /-- DEDUP_DISTANCE. -/
  dedupDistance : Nat := 50
  /-- CANDIDATE_CAP. -/
  candidateCap : Nat := 50
  /-- MAX_BYTES. -/
  maxBytes : Half := 10000
  /-- REPETITIONS. -/
  repetitions : Nat := 3
  deriving DecidableEq, Repr

end Sys2Proof
end

