-- ==== Sys2Proof/Machine/State.lean ====
section
/-! DEFINITION. The state of LSFX as plain data: everything 10_state.md names (R20 to R38), the
parameters of the instance (R41), and the two sides of the command port (30_encoding.md R90). -/

namespace Sys2Proof.Machine

/-- HALT, why the last EXTRACT halted (10_state.md R28). Its codes are in Flags.lean; codes 5 to 7 never
occur (93_implementation_defined.md U20). -/
inductive Halt where
  | none | cap | short | start | stop
  deriving DecidableEq, Repr

/-- VRES, the outcome of the last VALIDATE (10_state.md R31). Its codes are in Flags.lean. -/
inductive VRes where
  | none | ok | tooShort | mismatch
  deriving DecidableEq, Repr

/-- What the host does to LSFX next: the only things that may change its state (00_scope.md R15). -/
inductive HostEvent where
  /-- The host presents the word `cw`; it is accepted and runs to its end (30_encoding.md R90). -/
  | command (cw : Word)
  /-- Hardware reset (70_reset_and_hazards.md R250), asserted while the command `running` executes, if
  there is one; `presented` are the words the host holds on the port during reset, none accepted. -/
  | hardReset (running : Option Word) (presented : List Word)
  deriving DecidableEq, Repr

/-- The state of one LSFX and of its command port. The registers LEN and FCNT are the lengths of the two
stores (70_reset_and_hazards.md R251; `State.len` and `State.fcnt` in Ops.lean; DEDUCED, log entry 4). -/
structure State where
  /-- LDEPTH and FDEPTH, fixed for one instance (10_state.md R41; DESIGN CHOICE, log entry 5). -/
  cfg : Config
  /-- LBL[0 .. LEN-1], the raw labels; cells at LEN and beyond hold no value and are not here (R20, R21). -/
  lbl : List Bool
  /-- POL, the committed polarity (R22). -/
  pol : Bool
  /-- MAXB, the byte cap of the extractor (R26). -/
  maxb : Half
  /-- FB[0 .. FCNT-1]; cells at FCNT and beyond hold no value and are not here (R24, R25). -/
  fb : List Byte
  /-- POS, the position the last EXTRACT reached (R27). -/
  pos : Data
  /-- HALT (R28). -/
  halt : Halt
  /-- VRES (R31). -/
  vres : VRes
  /-- VREV, whether the bit-reversed candidate matched (R32). -/
  vrev : Bool
  /-- VINIT, whether the checksum variant with initial value 0xFFFF matched (R33). -/
  vinit : Bool
  /-- BLEN, the length of the body (R34). -/
  blen : Half
  /-- ERR, the sticky command-fault flags: bit 0 ILLEGAL, bit 1 OPERAND, bit 2 OVF (R36). -/
  err : BitVec 3
  /-- The events the host has lined up, next first: the model's own view of the port (R90; DESIGN CHOICE, log entry 1). -/
  cmds : List HostEvent
  /-- The response words LSFX has returned, oldest first: the model's own view of the port (R90; DESIGN CHOICE, log entry 1). -/
  rsps : List Word
  deriving DecidableEq, Repr

/-- The reasons LSFX stops with a fault: there are none. `step` is total (00_scope.md R15), and a command
fault of 60_exceptions.md R211 is a next state with its ERR bit set and its response returned (R14, R217);
nobody raises this type, which is safe (DEDUCED, log entry 11). -/
inductive Fault where
  deriving DecidableEq, Repr

/-- The reasons the model gives no meaning. -/
inductive Refusal where
  /-- An arm of `exec` whose command has no meaning yet; no arm raises it now. Raising it is safe. -/
  | notModelled (mnemonic : String)
  deriving DecidableEq, Repr

/-- The outcome of a step or of a command. -/
abbrev Result := Host.Outcome State Fault Refusal

/-- The machine right after reset (10_state.md R42), with the default parameters of 00_scope.md R9 and
nothing on the command port (DESIGN CHOICE, log entries 1, 5). -/
def State.reset : State where
  cfg := Config.default
  lbl := []
  pol := false
  maxb := Config.default.fdepth
  fb := []
  pos := 0
  halt := .none
  vres := .none
  vrev := false
  vinit := false
  blen := 0
  err := 0
  cmds := []
  rsps := []

end Sys2Proof.Machine
end

