-- ==== Sys2Proof/Machine/Flags.lean ====
section
/-! DEFINITION. Every flag and status computation of the spec: the codes of HALT and VRES, the words XSTAT
and VSTAT, and the ERR bits (10_state.md R28, R31 to R33, R36, R38; 60_exceptions.md R211). LSFX has no
arithmetic flags (10_state.md R37). -/

namespace Sys2Proof.Machine

/-- The codes of HALT (10_state.md R28). -/
def Halt.code : Halt → BitVec 3
  | .none => 0
  | .cap => 1
  | .short => 2
  | .start => 3
  | .stop => 4

/-- The codes of VRES (10_state.md R31). -/
def VRes.code : VRes → BitVec 2
  | .none => 0
  | .ok => 1
  | .tooShort => 2
  | .mismatch => 3

/-- XSTAT, register 6: HALT in bits 2:0 (10_state.md R38). -/
def xstat (halt : Halt) : Data := halt.code.setWidth 24

/-- VSTAT, register 7: VRES in bits 1:0, VREV in bit 2, VINIT in bit 3 (10_state.md R38). -/
def vstat (vres : VRes) (vrev vinit : Bool) : Data :=
  0#20 ++ (BitVec.ofBool vinit ++ (BitVec.ofBool vrev ++ vres.code))

/-- The three command faults (60_exceptions.md R211). -/
inductive CmdFault where
  /-- The word is not one of the twelve commands; raised by the decoder. -/
  | illegal
  /-- The operand names something that does not exist or holds no value. -/
  | operand
  /-- The label store is full. -/
  | ovf
  deriving DecidableEq, Repr

/-- FCODE (60_exceptions.md R211). -/
def CmdFault.code : CmdFault → BitVec 3
  | .illegal => 1
  | .operand => 2
  | .ovf => 3

/-- The ERR bit of a fault, `ERR[FCODE-1]` (60_exceptions.md R211, R212). -/
def CmdFault.errBit (f : CmdFault) : BitVec 3 := 1#3 <<< (f.code.toNat - 1)

/-- `ERR[code-1] <- 1`: the other bits, and the bit if it is already 1, stay (60_exceptions.md R212). -/
def errRecord (err : BitVec 3) (f : CmdFault) : BitVec 3 := err ||| f.errBit

/-- `ERR & ~m` (43_control.md R196). -/
def errClear (err m : BitVec 3) : BitVec 3 := err &&& ~~~m

end Sys2Proof.Machine
end

