-- ==== Sys2Proof/Machine/Ops.lean ====
section
/-! DEFINITION. The named operations over the stores, the registers and the command port, and RAISING A
COMMAND FAULT as one shared operation (00_scope.md R14). There is no return from a fault beside it: the
next command simply runs (60_exceptions.md R217). -/

namespace Sys2Proof.Machine

/-! ### Reading -/

/-- LEN as a number: how many labels the store holds (10_state.md R21; 70_reset_and_hazards.md R251). -/
def State.len (s : State) : Nat := s.lbl.length

/-- FCNT as a number: how many bytes the frame buffer holds (10_state.md R25; 70_reset_and_hazards.md
R251). -/
def State.fcnt (s : State) : Nat := s.fb.length

/-- The register LEN, 24 bits (10_state.md R21; DESIGN CHOICE, log entry 9). -/
def State.lenReg (s : State) : Data := BitVec.ofNat 24 s.len

/-- The register FCNT, 16 bits (10_state.md R25; DESIGN CHOICE, log entry 9). -/
def State.fcntReg (s : State) : Half := BitVec.ofNat 16 s.fcnt

/-- The raw label `LBL[i]`; `none` where the cell holds no value (10_state.md R20). -/
def State.labelAt (s : State) (i : Nat) : Option Bool := s.lbl[i]?

/-- The frame byte `FB[i]`; `none` where the cell holds no value (10_state.md R24). -/
def State.frameAt (s : State) (i : Nat) : Option Byte := s.fb[i]?

/-- The committed bit sequence `bit(0 .. LEN-1)`: every label under the one polarity (00_scope.md R13). -/
def State.bits (s : State) : List Bool := s.lbl.map (fun label => label ^^ s.pol)

/-- `bit(i) = LBL[i] ^ POL`; `none` where it has no value, i >= LEN (00_scope.md R13). -/
def State.bit? (s : State) (i : Nat) : Option Bool := s.bits[i]?

/-- Both stores are within the depths of the instance (10_state.md R23, R29). As each store is the sequence
of its cells that hold a value, equal stores are equal data (DESIGN CHOICE, log entry 10). -/
abbrev Memory.wf (s : State) : Prop :=
  s.len ≤ s.cfg.ldepth.toNat ∧ s.fcnt ≤ s.cfg.fdepth.toNat

/-! ### Responses -/

/-- The response word of a completed command (30_encoding.md R93). -/
def okWord (data : Data) : Word := 0#8 ++ data

/-- The response word of a refused command: FAULT = 1, FCODE, DATA = 0 (30_encoding.md R93). -/
def faultWord (f : CmdFault) : Word := 1#1 ++ (f.code ++ 0#28)

/-- Return one response word to the host (30_encoding.md R90). -/
def State.respond (rw : Word) (s : State) : State := { s with rsps := s.rsps ++ [rw] }

/-- `done: DATA = data`, the end of a command that completes (00_scope.md R16). -/
def complete (data : Data) (s : State) : Result := .next (s.respond (okWord data))

/-- Record a command fault in ERR (60_exceptions.md R212). -/
def State.recordFault (f : CmdFault) (s : State) : State := { s with err := errRecord s.err f }

/-- `raise Fault(code)`: no write to any state except the ERR bit; the machine goes on (00_scope.md R14;
60_exceptions.md R212, R217). -/
def raise (f : CmdFault) (s : State) : Result := .next ((s.recordFault f).respond (faultWord f))

/-! ### Writing -/

/-- `LBL[LEN] <- label; LEN <- LEN + 1`, the only write to the label store (20_memory.md R61). -/
def State.appendLabel (label : Bool) (s : State) : State := { s with lbl := s.lbl ++ [label] }

/-- `POL <- b` (40_capture.md R123). -/
def State.setPol (b : Bool) (s : State) : State := { s with pol := b }

/-- `MAXB <- h` (41_extract.md R141). -/
def State.setMaxb (h : Half) (s : State) : State := { s with maxb := h }

/-- The four validator registers, always written together (10_state.md R31 to R34). -/
def State.setVerdict (vres : VRes) (vrev vinit : Bool) (blen : Half) (s : State) : State :=
  { s with vres := vres, vrev := vrev, vinit := vinit, blen := blen }

/-- FB, FCNT, POS and HALT, always written together: the previous contents are discarded
(20_memory.md R62; 41_extract.md R143). -/
def State.storeFrame (bytes : List Byte) (pos : Data) (cause : Halt) (s : State) : State :=
  { s with fb := bytes, pos := pos, halt := cause }

/-- `ERR <- err` (43_control.md R196). -/
def State.setErr (err : BitVec 3) (s : State) : State := { s with err := err }

/-- Every register its reset value and both stores empty (10_state.md R42; 43_control.md R192), shared by
INIT and hardware reset. The parameters and the port are no registers and stay. -/
def State.clear (s : State) : State :=
  { s with
    lbl := [], pol := false, maxb := s.cfg.fdepth
    fb := [], pos := 0, halt := .none
    vres := .none, vrev := false, vinit := false, blen := 0
    err := 0 }

/-! ### The command port -/

/-- The host's next events (30_encoding.md R90). -/
def State.setCmds (evs : List HostEvent) (s : State) : State := { s with cmds := evs }

/-- The host presents one command word as its next event (30_encoding.md R90). -/
def State.presentWord (cw : Word) (s : State) : State := s.setCmds (.command cw :: s.cmds)

/-- Hardware reset: the reset state in every register; a running command leaves no write and no response,
and no presented word is accepted (70_reset_and_hazards.md R250). -/
def hardResetState (_running : Option Word) (_presented : List Word) (s : State) : State := s.clear

end Sys2Proof.Machine
end

