-- ==== Sys2Proof/Machine/Operands.lean ====
section
/-! DEFINITION. What an operand names (30_encoding.md R94, R95): a bit of the committed sequence, a byte of
the frame, a byte of the validated body, a register. Each reader answers `none` where the operand names
something that does not exist or holds no value, which is Fault(2) OPERAND (20_memory.md R68). -/

namespace Sys2Proof.Machine

/-- A bit zero-extended to DATA. -/
def bitData (b : Bool) : Data := (BitVec.ofBool b).setWidth 24

/-- A byte zero-extended to DATA. -/
def byteData (b : Byte) : Data := b.setWidth 24

/-- `rev8(b)`: the 8-bit value r with `r[i] = b[7-i]` (42_validate.md R161). -/
def rev8 (b : Byte) : Byte := b.reverse

/-- A byte as candidate `C_r` shows it: as parsed, or bit-reversed (42_validate.md R162). -/
def candidateByte (r : Bool) (b : Byte) : Byte := if r then rev8 b else b

/-- The bit RDBIT's operand names (40_capture.md R125). -/
def bitOperand? (s : State) (idx : Data) : Option Data := (s.bit? idx.toNat).map bitData

/-- The byte RDFRAME's operand names (41_extract.md R147). -/
def frameOperand? (s : State) (h : Half) : Option Data := (s.frameAt h.toNat).map byteData

/-- The byte RDBODY's operand names: there must be a validated body, the index must be within it, and the
byte is read through the candidate that matched (42_validate.md R170; DEDUCED, log entry 8). -/
def bodyOperand? (s : State) (h : Half) : Option Data :=
  if s.vres ≠ .ok then none
  else if s.blen ≤ h then none
  else (s.frameAt h.toNat).map fun b => byteData (candidateByte s.vrev b)

/-- The register RDREG's operand names, as laid out in 10_state.md R38; 12 to 15 are reserved. -/
def registerOperand? (s : State) (r : BitVec 4) : Option Data :=
  match r.toNat with
  | 0 => some idWord
  | 1 => some s.lenReg
  | 2 => some (bitData s.pol)
  | 3 => some (s.maxb.setWidth 24)
  | 4 => some s.pos
  | 5 => some (s.fcntReg.setWidth 24)
  | 6 => some (xstat s.halt)
  | 7 => some (vstat s.vres s.vrev s.vinit)
  | 8 => some (s.blen.setWidth 24)
  | 9 => some (s.err.setWidth 24)
  | 10 => some s.cfg.ldepth
  | 11 => some (s.cfg.fdepth.setWidth 24)
  | _ => none

/-- A read command: DATA is what the operand names, or Fault(2) OPERAND (20_memory.md R68). It changes no
register (20_memory.md R69). -/
def readOperand (value : Option Data) (s : State) : Result :=
  match value with
  | some data => complete data s
  | none => raise .operand s

end Sys2Proof.Machine
end

