-- ==== Sys2Proof/Machine/Capture.lean ====
section
/-! DEFINITION. The bit-decision register commands CAPT, SETPOL and RDBIT (40_capture.md). -/

namespace Sys2Proof.Machine

/-- CAPT: the label is stored raw, whatever POL is; DATA is the new LEN (40_capture.md R121). -/
def execCapt (b : Bool) (s : State) : Result :=
  if s.len = s.cfg.ldepth.toNat then raise .ovf s
  else
    let t := s.appendLabel b
    complete t.lenReg t

/-- SETPOL (40_capture.md R123). -/
def execSetpol (b : Bool) (s : State) : Result := complete (bitData b) (s.setPol b)

/-- RDBIT (40_capture.md R125). -/
def execRdbit (idx : Data) (s : State) : Result := readOperand (bitOperand? s idx) s

end Sys2Proof.Machine
end

