-- ==== Sys2Proof/Machine/Control.lean ====
section
/-! DEFINITION. The control commands NOP, INIT, RDREG and CLRERR (43_control.md). -/

namespace Sys2Proof.Machine

/-- NOP (43_control.md R191). -/
def execNop (s : State) : Result := complete 0 s

/-- INIT (43_control.md R192). -/
def execInit (s : State) : Result := complete 0 s.clear

/-- RDREG (43_control.md R194). -/
def execRdreg (r : BitVec 4) (s : State) : Result := readOperand (registerOperand? s r) s

/-- CLRERR: DATA is the new ERR (43_control.md R196). -/
def execClrerr (m : BitVec 3) (s : State) : Result :=
  let t := s.setErr (errClear s.err m)
  complete (t.err.setWidth 24) t

end Sys2Proof.Machine
end

