-- ==== Sys2Proof/Machine/Extract.lean ====
section
/-! DEFINITION. The UART frame extractor commands SETMAXB, EXTRACT and RDFRAME (41_extract.md). -/

namespace Sys2Proof.Machine

/-- One character: start bit, data byte, stop bit (00_scope.md, glossary). -/
structure Character where
  start : Bool
  data : Byte
  stop : Bool
  deriving DecidableEq, Repr

/-- Data bits assembled most-significant-bit-first: each step is `b <- ((b << 1) | bit)[7:0]`
(41_extract.md R143, R149). -/
def packBits (bits : List Bool) : Byte :=
  bits.foldl (fun b d => b <<< 1 ||| (BitVec.ofBool d).setWidth 8) 0

/-- The character that starts at bit index `p`: bit(p), bit(p+1 .. p+8), bit(p+9); `none` exactly when
fewer than 10 bits remain at `p`, that is `p + 10 > LEN` (41_extract.md R143; 20_memory.md R68). -/
def characterAt? (bits : List Bool) (p : Nat) : Option Character :=
  match (bits.drop p).take charBits with
  | [st, d0, d1, d2, d3, d4, d5, d6, d7, sp] =>
    some { start := st, data := packBits [d0, d1, d2, d3, d4, d5, d6, d7], stop := sp }
  | _ => none

/-- What an extraction returns: the bytes accumulated, the position reached, the cause of the halt
(41_extract.md R140, R144). -/
structure Extraction where
  bytes : List Byte
  pos : Nat
  cause : Halt
  deriving DecidableEq, Repr

/-- The loop of 41_extract.md R143 from position `p` with room for `room` more bytes under the cap: the
four checks in R144's order, then the byte is stored and `p <- p + 10`. -/
def extractLoop (bits : List Bool) : (room : Nat) → (p : Nat) → Extraction
  | 0, p => { bytes := [], pos := p, cause := .cap }
  | room + 1, p =>
    match characterAt? bits p with
    | none => { bytes := [], pos := p, cause := .short }
    | some c =>
      if c.start then { bytes := [], pos := p, cause := .start }
      else if !c.stop then { bytes := [], pos := p, cause := .stop }
      else
        let rest := extractLoop bits room (p + charBits)
        { rest with bytes := c.data :: rest.bytes }

/-- The DATA of EXTRACT: HALT in bits 18:16, FCNT in bits 15:0 (41_extract.md R143). -/
def extractData (s : State) : Data := 0#5 ++ (s.halt.code ++ s.fcntReg)

/-- SETMAXB: a cap above FDEPTH is refused, not clamped (41_extract.md R141). -/
def execSetmaxb (h : Half) (s : State) : Result :=
  if s.cfg.fdepth < h then raise .operand s
  else complete (h.setWidth 24) (s.setMaxb h)

/-- EXTRACT: the loop over the committed bits from `idx`, and the validator's registers reset
(41_extract.md R143; DESIGN CHOICE, log entry 9). -/
def execExtract (idx : Data) (s : State) : Result :=
  let x := extractLoop s.bits s.maxb.toNat idx.toNat
  let t := (s.storeFrame x.bytes (BitVec.ofNat 24 x.pos) x.cause).setVerdict .none false false 0
  complete (extractData t) t

/-- RDFRAME: the byte as extracted, whatever VRES is (41_extract.md R147). -/
def execRdframe (h : Half) (s : State) : Result := readOperand (frameOperand? s h) s

end Sys2Proof.Machine
end

