-- ==== Sys2Proof/Machine/Validate.lean ====
section
/-! DEFINITION. The CRC/checksum validator commands VALIDATE and RDBODY (42_validate.md). -/

namespace Sys2Proof.Machine

/-- One shift of the CRC register: left within 16 bits, the polynomial when the bit shifted out is 1
(42_validate.md R163; PRESUMED, log entry 7). -/
def crcShift (c : Half) : Half := if c.msb then c <<< 1 ^^^ crcPoly else c <<< 1

/-- One message byte: it enters at bits 15:8, then eight shifts (42_validate.md R163). -/
def crcByte (c : Half) (b : Byte) : Half := Nat.repeat crcShift 8 (c ^^^ b.setWidth 16 <<< 8)

/-- `crc16(init, M)`: no final exclusive-or, no reflection (42_validate.md R163). -/
def crc16 (initial : Half) (message : List Byte) : Half := message.foldl crcByte initial

/-- The candidate `C_r` of the frame bytes: a view, byte by byte, trailer alike (42_validate.md R162). -/
def candidate (r : Bool) (frame : List Byte) : List Byte := frame.map (candidateByte r)

/-- The body of a candidate: all bytes except the trailer (42_validate.md R165). -/
def bodyOf (c : List Byte) : List Byte := c.take (c.length - trailerBytes)

/-- The trailer of a candidate, the last two bytes, high byte first (20_memory.md R64); `none` where there
are not two bytes, which no rule asks for. -/
def trailerOf? (c : List Byte) : Option Half :=
  match c.drop (c.length - trailerBytes) with
  | [hi, lo] => some (hi ++ lo)
  | _ => none

/-- `match(C, v)`: the checksum of the body is the trailer (42_validate.md R165). -/
def matchesTrailer (c : List Byte) (v : Bool) : Bool := trailerOf? c == some (crc16 (crcInit v) (bodyOf c))

/-- The four combinations `(r, v)` in the order of trials (42_validate.md R167). -/
def trials : List (Bool × Bool) := [(false, false), (false, true), (true, false), (true, true)]

/-- The first combination that matches (42_validate.md R166, R167). -/
def firstMatch? (frame : List Byte) : Option (Bool × Bool) :=
  trials.find? fun rv => matchesTrailer (candidate rv.1 frame) rv.2

/-- VRES, VREV, VINIT and BLEN as VALIDATE sets them for a frame (42_validate.md R166). -/
structure Verdict where
  vres : VRes
  vrev : Bool
  vinit : Bool
  blen : Half
  deriving DecidableEq, Repr

/-- The validator's judgement of a frame (42_validate.md R166). -/
def judge (frame : List Byte) : Verdict :=
  if frame.length < minFrameBytes then { vres := .tooShort, vrev := false, vinit := false, blen := 0 }
  else
    match firstMatch? frame with
    | some (r, v) =>
      { vres := .ok, vrev := r, vinit := v, blen := BitVec.ofNat 16 (frame.length - trailerBytes) }
    | none => { vres := .mismatch, vrev := false, vinit := false, blen := 0 }

/-- The DATA of VALIDATE: VINIT in bit 19, VREV in bit 18, VRES in bits 17:16, BLEN in bits 15:0
(42_validate.md R166). -/
def validateData (s : State) : Data :=
  0#4 ++ (BitVec.ofBool s.vinit ++ (BitVec.ofBool s.vrev ++ (s.vres.code ++ s.blen)))

/-- VALIDATE (42_validate.md R166). -/
def execValidate (s : State) : Result :=
  let j := judge s.fb
  let t := s.setVerdict j.vres j.vrev j.vinit j.blen
  complete (validateData t) t

/-- RDBODY (42_validate.md R170). -/
def execRdbody (h : Half) (s : State) : Result := readOperand (bodyOperand? s h) s

end Sys2Proof.Machine
end

