-- ==== Sys2Proof/Machine/Dispatch.lean ====
section
/-! DEFINITION. One arm per command (30_encoding.md R96), each one call of its meaning. -/

namespace Sys2Proof.Machine

def exec (i : Instr) (s : State) : Host.Outcome State Fault Refusal :=
  match i with
  | .nop => Sys2Proof.Machine.execNop s
  | .init => Sys2Proof.Machine.execInit s
  | .capt b => Sys2Proof.Machine.execCapt b s
  | .setpol b => Sys2Proof.Machine.execSetpol b s
  | .setmaxb h => Sys2Proof.Machine.execSetmaxb h s
  | .extract idx => Sys2Proof.Machine.execExtract idx s
  | .validate => Sys2Proof.Machine.execValidate s
  | .rdbit idx => Sys2Proof.Machine.execRdbit idx s
  | .rdframe h => Sys2Proof.Machine.execRdframe h s
  | .rdbody h => Sys2Proof.Machine.execRdbody h s
  | .rdreg r => Sys2Proof.Machine.execRdreg r s
  | .clrerr m => Sys2Proof.Machine.execClrerr m s

end Sys2Proof.Machine
end

