-- ==== Sys2Proof/Machine/Port.lean ====
section
/-! DEFINITION. The command port: what one event of the host does (00_scope.md R15; 30_encoding.md R90,
R97; 70_reset_and_hazards.md R250). -/

namespace Sys2Proof.Machine

/-- The function of 00_scope.md R15 on one accepted command word: decode, then the command, or
Fault(1) ILLEGAL (30_encoding.md R97). The response word is the one it appends to `rsps`. -/
def acceptWord (cw : Word) (s : State) : Result :=
  match decode cw with
  | .command i => exec i s
  | .illegal _ => raise .illegal s

/-- One event of the host (DESIGN CHOICE and DEDUCED, log entries 1, 3). -/
def acceptEvent (ev : HostEvent) (s : State) : Result :=
  match ev with
  | .command cw => acceptWord cw s
  | .hardReset running presented => .next (hardResetState running presented s)

/-- Between commands the block is idle and keeps all state (60_exceptions.md R226; DESIGN CHOICE, log entry 2). -/
def idle (s : State) : Result := .next s

end Sys2Proof.Machine
end

