-- ==== Sys2Proof/Machine/Step.lean ====
section
/-! DEFINITION. One step: the host's next event is taken off the port and acted on. -/

namespace Sys2Proof.Machine

/-- One step (00_scope.md R15): the next event of the host, if it has one; else LSFX is idle. -/
def step (s : State) : Host.Outcome State Fault Refusal :=
  match s.cmds with
  | [] => idle s
  | ev :: rest => acceptEvent ev (s.setCmds rest)

/-- `s` with the word `w` as the host's next event, so that the next step accepts it. Nothing is stored in
LSFX itself: it has no instruction memory (20_memory.md R79; DESIGN CHOICE, log entry 2). -/
def State.withFetchWord (s : State) (nbits w : Nat) : State :=
  s.presentWord (BitVec.ofNat 32 (w % 2 ^ nbits))

end Sys2Proof.Machine
end

