-- ==== Sys2Proof/Machine/Assembler.lean ====
section
/-! DEFINITION. The command syntax of 30_encoding.md R102 and the pseudo-commands of R103: from a line of
text to the commands it stands for. The syntax is the spec's own, for its examples; LSFX never sees it
(DESIGN CHOICE, log entry 14). -/

namespace Sys2Proof.Machine

/-- What a line is made of. -/
inductive Token where
  /-- A mnemonic, a number or a register's name. -/
  | word (cs : List Char)
  /-- A string in double quotes. -/
  | quoted (cs : List Char)
  /-- The comma of `TRY p, idx`. -/
  | comma
  deriving DecidableEq, Repr

/-- `;` starts a comment (R102). -/
def stripComment (line : List Char) : List Char := line.takeWhile (fun c => c != ';')

/-- A finished word, if there is one. -/
def wordToken (cs : List Char) : List Token := if cs.isEmpty then [] else [.word cs]

/-- The tokens of a line, `cur` being the word or string read so far; `none` where a quote is not
closed. -/
def lex : (inQuotes : Bool) → (cur : List Char) → List Char → Option (List Token)
  | true, _, [] => none
  | true, cur, c :: cs =>
    if c = '"' then (lex false [] cs).map (fun ts => .quoted cur :: ts) else lex true (cur ++ [c]) cs
  | false, cur, [] => some (wordToken cur)
  | false, cur, c :: cs =>
    if c = '"' then (lex true [] cs).map (fun ts => wordToken cur ++ ts)
    else if c = ',' then (lex false [] cs).map (fun ts => wordToken cur ++ .comma :: ts)
    else if c = ' ' ∨ c = '\t' then (lex false [] cs).map (fun ts => wordToken cur ++ ts)
    else lex false (cur ++ [c]) cs

/-- A digit's value in base 16 or less. -/
def digit? (c : Char) : Option Nat :=
  if '0'.toNat ≤ c.toNat ∧ c.toNat ≤ '9'.toNat then some (c.toNat - '0'.toNat)
  else if 'A'.toNat ≤ c.toNat ∧ c.toNat ≤ 'F'.toNat then some (c.toNat - 'A'.toNat + 10)
  else if 'a'.toNat ≤ c.toNat ∧ c.toNat ≤ 'f'.toNat then some (c.toNat - 'a'.toNat + 10)
  else none

/-- Digits in a base, most significant first, after the value `acc`. -/
def digits? (base : Nat) : (acc : Nat) → List Char → Option Nat
  | acc, [] => some acc
  | acc, c :: cs =>
    match digit? c with
    | some d => if d < base then digits? base (base * acc + d) cs else none
    | none => none

/-- A number: `0x` and hexadecimal digits, or decimal digits (R11, R102). -/
def number? (cs : List Char) : Option Nat :=
  match cs with
  | [] => none
  | ['0', 'x'] => none
  | '0' :: 'x' :: hex => digits? 16 0 hex
  | dec => digits? 10 0 dec

/-- The spelling of a mnemonic (R96, R102). -/
def Mnemonic.spelling : Mnemonic → String
  | .nop => "NOP"
  | .init => "INIT"
  | .capt => "CAPT"
  | .setpol => "SETPOL"
  | .setmaxb => "SETMAXB"
  | .extract => "EXTRACT"
  | .validate => "VALIDATE"
  | .rdbit => "RDBIT"
  | .rdframe => "RDFRAME"
  | .rdbody => "RDBODY"
  | .rdreg => "RDREG"
  | .clrerr => "CLRERR"

/-- All twelve mnemonics. -/
def allMnemonics : List Mnemonic :=
  [.nop, .init, .capt, .setpol, .setmaxb, .extract, .validate, .rdbit, .rdframe, .rdbody, .rdreg, .clrerr]

/-- The mnemonic a word spells. -/
def mnemonic? (cs : List Char) : Option Mnemonic :=
  allMnemonics.find? (fun m => (Mnemonic.spelling m).toList == cs)

/-- The names of the registers, in order of their numbers (10_state.md R38). -/
def registerNames : List String :=
  ["ID", "LEN", "POL", "MAXB", "POS", "FCNT", "XSTAT", "VSTAT", "BLEN", "ERR", "LDEPTH", "FDEPTH"]

/-- An operand as written: a number, or for RDREG a register's name (R102). -/
def operandText? (m : Mnemonic) (cs : List Char) : Option Nat :=
  match number? cs with
  | some n => some n
  | none => if m = .rdreg then registerNames.findIdx? (fun name => name.toList == cs) else none

/-- One label of a CAPTS string; spaces are dropped before (R103). -/
def captOf? (c : Char) : Option Instr :=
  if c = '0' then some (.capt false) else if c = '1' then some (.capt true) else none

/-- The commands a line's tokens stand for (R102, R103); `none` where an assembler refuses the line. -/
def commandsOf? (tokens : List Token) : Option (List Instr) :=
  match tokens with
  | [] => some []
  | [.word w] => do
    let m ← mnemonic? w
    let i ← CommandText.instr? { mnemonic := m, operand := none }
    return [i]
  | [.word w, .word n] => do
    let m ← mnemonic? w
    let v ← operandText? m n
    let i ← CommandText.instr? { mnemonic := m, operand := some v }
    return [i]
  | [.word w, .quoted labels] =>
    if w = "CAPTS".toList then (labels.filter (fun c => c != ' ')).mapM captOf? else none
  | [.word w, .word p, .comma, .word idx] =>
    if w = "TRY".toList then do
      let pol ← number? p
      let start ← number? idx
      let a ← CommandText.instr? { mnemonic := .setpol, operand := some pol }
      let b ← CommandText.instr? { mnemonic := .extract, operand := some start }
      return [a, b, .validate]
    else none
  | _ => none

/-- One line of text (R102: one command per line). -/
def assembleLine? (line : List Char) : Option (List Instr) := do
  let tokens ← lex false [] (stripComment line)
  commandsOf? tokens

/-- The command words a line of text stands for (R102, R103). -/
def lineWords? (line : String) : Option (List Word) := (assembleLine? line.toList).map (List.map encode)

end Sys2Proof.Machine
end

