-- ==== Sys2Proof/Machine/HostProcedures.lean ====
section
/-! DEFINITION. The host-side procedures the spec transcribes around the block (00_scope.md R6 item 5;
60_exceptions.md R227 to R231). They are no part of LSFX: `step` uses none of them (DESIGN CHOICE, log entry 13). -/

namespace Sys2Proof.Machine

/-! ### The wire format (60_exceptions.md R227) -/

/-- The bits of a byte, most significant first. -/
def msbBits (b : Byte) : List Bool :=
  [b.getLsbD 7, b.getLsbD 6, b.getLsbD 5, b.getLsbD 4, b.getLsbD 3, b.getLsbD 2, b.getLsbD 1, b.getLsbD 0]

/-- One UART-framed byte: start bit 0, eight data bits, stop bit 1 (R227). -/
def wireCharacter (b : Byte) : List Bool := false :: (msbBits b ++ [true])

/-- `payload = text ∥ 2-byte big-endian CRC-16`, initial value 0x0000, over the text bytes (R227). -/
def wirePayload (text : List Byte) : List Byte :=
  let c := crc16 (crcInit false) text
  text ++ [c.extractLsb' 8 8, c.extractLsb' 0 8]

/-- One unit: `pre` ones, the characters of the payload, `post` ones; R227 asks for at least 12 of
each. -/
def wireUnit (pre post : Nat) (text : List Byte) : List Bool :=
  List.replicate pre true ++ ((wirePayload text).flatMap wireCharacter ++ List.replicate post true)

/-- The whole transmission: the unit repeated for redundancy, with the nominal preamble and postamble
(R227). -/
def transmission (p : HostParams) (text : List Byte) : List Bool :=
  (List.replicate p.repetitions (wireUnit p.nominalPreamble p.nominalPreamble text)).flatten

/-! ### The frame locator (60_exceptions.md R228, R229) -/

/-- The scan of R228 from index `i`: `run` ones stand just before it, `last` is the last kept candidate. -/
def locateFrom (p : HostParams) : (bits : List Bool) → (i run : Nat) → (last : Option Nat) → List Nat
  | [], _, _, _ => []
  | true :: bits, i, run, last => locateFrom p bits (i + 1) (run + 1) last
  | false :: bits, i, run, last =>
    if p.preambleThreshold ≤ run ∧ last.all (fun l => decide (p.dedupDistance ≤ i - l)) then
      i :: locateFrom p bits (i + 1) 0 (some i)
    else locateFrom p bits (i + 1) 0 last

/-- `locate` over a bit sequence with a committed polarity (R228). Of two close candidates the earlier is
kept, and the distance is taken from the last kept one: this spec's own reading, R229 (D24; DESIGN CHOICE,
log entry 13). -/
def locate (p : HostParams) (bits : List Bool) : List Nat := locateFrom p bits 0 0 none

/-! ### The search (60_exceptions.md R230, R231) -/

/-- The host sends one command and lets LSFX execute it. -/
def issue (i : Instr) (s : State) : State :=
  match step (s.presentWord (encode i)) with
  | .next t => t
  | .fault _ => s
  | .refused _ => s

/-- DATA of the last response. -/
def lastData (s : State) : Data :=
  match s.rsps.getLast? with
  | some rw => rw.extractLsb' 0 24
  | none => 0

/-- The host sends `read 0 .. read (count - 1)`: the state after, and the DATA of each response. -/
def readAll (read : Nat → Instr) (count : Nat) (s : State) : State × List Data :=
  (List.range count).foldl
    (fun (acc : State × List Data) k =>
      let t := issue (read k) acc.1
      (t, acc.2 ++ [lastData t]))
    (s, [])

/-- Read the body with RDBODY 0 .. BLEN-1 (R230): the state after, and the bytes returned. -/
def readBody (s : State) : State × List Byte :=
  let r := readAll (fun h => .rdbody (BitVec.ofNat 16 h)) s.blen.toNat s
  (r.1, r.2.map (fun d => d.setWidth 8))

/-- Read `bit(0 .. LEN-1)` with RDBIT 0 .. LEN-1 (R228), the first of R228's two ways to the sequence. -/
def readBits (s : State) : State × List Bool :=
  let r := readAll (fun i => .rdbit (BitVec.ofNat 24 i)) s.len s
  (r.1, r.2.map (fun d => d.getLsbD 0))

/-- A validated body and the hypothesis it was found under. -/
structure Found where
  pol : Bool
  start : Nat
  body : List Byte
  deriving DecidableEq, Repr

/-- One candidate: EXTRACT, VALIDATE, and the body if VRES = 1 (R230). A candidate is below LEN, so it is
an index of 24 bits. -/
def tryCandidate (pol : Bool) (acc : State × List Found) (start : Nat) : State × List Found :=
  let s := issue .validate (issue (.extract (BitVec.ofNat 24 start)) acc.1)
  if s.vres = .ok then
    let r := readBody s
    (r.1, acc.2 ++ [{ pol := pol, start := start, body := r.2 }])
  else (s, acc.2)

/-- One polarity: SETPOL, then the first candidates of `locate` in position order (R230). `locate` scans
`bit(0 .. LEN-1)`, the labels that are stored, so a label CAPT refused with OVF is not scanned. R228 lets
the host read them with RDBIT or compute them from its own copy; here it computes them, and no RDBIT is
issued (DESIGN CHOICE, log entry 13; `readBits` is the other way, to the same bits). -/
def searchPolarity (p : HostParams) (acc : State × List Found) (pol : Bool) : State × List Found :=
  let s := issue (.setpol pol) acc.1
  ((locate p s.bits).take p.candidateCap).foldl (tryCandidate pol) (s, acc.2)

/-- The orchestrator's search as far as it drives the block (R230): INIT, one CAPT per label, SETMAXB, then
both polarities, as-detected first. The host goes on after a refused CAPT or SETMAXB (DESIGN CHOICE, log
entry 13). -/
def search (p : HostParams) (labels : List Bool) (s : State) : State × List Found :=
  let captured := labels.foldl (fun t label => issue (.capt label) t) (issue .init s)
  [false, true].foldl (searchPolarity p) (issue (.setmaxb p.maxBytes) captured, [])

/-- `NoValidFrame`: no VALIDATE of the search ended with VRES = 1 (R231). -/
def noValidFrame (p : HostParams) (labels : List Bool) (s : State) : Bool := (search p labels s).2.isEmpty

end Sys2Proof.Machine
end

