-- ==== Sys2Proof/Safety.lean ====
section
/-! DEFINITION. What counts as a safe state and a safe run of LSFX, in the spec's terms: the invariants of
10_state.md R23, R29 and R35, the reset values of R42, and the words 30_encoding.md R97 calls illegal,
written on the word's number. -/

namespace Sys2Proof.Machine

/-- The BDR within its bounds (10_state.md R23 a; R23 b, every cell below LEN holds 0 or 1, is the type of
`lbl`). -/
abbrev State.BdrInv (s : State) : Prop := s.len ≤ s.cfg.ldepth.toNat

/-- The invariants of the UFE (10_state.md R29 a, c, d; R29 b, every cell below FCNT holds a value, is the
type of `fb`). -/
abbrev State.UfeInv (s : State) : Prop :=
  s.fcnt ≤ s.cfg.fdepth.toNat ∧ s.maxb.toNat ≤ s.cfg.fdepth.toNat ∧
  (s.halt = .none → s.fcnt = 0 ∧ s.pos = 0) ∧
  (0 < s.fcnt → s.pos.toNat ≤ s.len ∧ 10 * s.fcnt ≤ s.pos.toNat)

/-- The invariants of the CCV (10_state.md R35). Part (c), that FB has not been written since the VALIDATE
that set the verdict, is stated as what it is for: a verdict other than NONE is the verdict on the
frame in FB. -/
abbrev State.CcvInv (s : State) : Prop :=
  (s.vres = .ok → 3 ≤ s.fcnt ∧ s.blen.toNat = s.fcnt - 2 ∧ 1 ≤ s.blen.toNat) ∧
  (s.vres ≠ .ok → s.vrev = false ∧ s.vinit = false ∧ s.blen = 0) ∧
  (s.vres ≠ .none →
    ({ vres := s.vres, vrev := s.vrev, vinit := s.vinit, blen := s.blen } : Verdict) = judge s.fb)

/-- The invariant of LSFX: legal parameters (00_scope.md R9) and the invariants of the three units. -/
abbrev State.Inv (s : State) : Prop := s.cfg.Valid ∧ s.BdrInv ∧ s.UfeInv ∧ s.CcvInv

/-- Every register at its reset value and both stores empty, for the state's own parameters (10_state.md
R42). -/
abbrev State.AtReset (s : State) : Prop :=
  s.len = 0 ∧ s.pol = false ∧ s.maxb = s.cfg.fdepth ∧ s.fcnt = 0 ∧ s.pos = 0 ∧ s.halt = .none ∧
  s.vres = .none ∧ s.vrev = false ∧ s.vinit = false ∧ s.blen = 0 ∧ s.err = 0

/-- A state LSFX steps from: no fault and no refusal ends the run (00_scope.md R15). -/
def State.Safe (s : State) : Prop := ∃ t, step s = .next t

/-- OP as a number, bits 31:28 (30_encoding.md R91). -/
abbrev opNumber (w : Word) : Nat := w.toNat / 2 ^ 28

/-- RSV as a number, bits 27:24 (30_encoding.md R91). -/
abbrev rsvNumber (w : Word) : Nat := w.toNat / 2 ^ 24 % 16

/-- ARG as a number, bits 23:0 (30_encoding.md R91). -/
abbrev argNumber (w : Word) : Nat := w.toNat % 2 ^ 24

/-- The width of the operand field of each opcode (30_encoding.md R94, R96). -/
abbrev operandWidth (op : Nat) : Nat := [0, 0, 1, 1, 16, 24, 0, 24, 16, 16, 4, 3].getD op 24

/-- The words 30_encoding.md R97 calls illegal: reserved opcode, RSV not 0, or a reserved ARG bit set. -/
abbrev IllegalWord (w : Word) : Prop :=
  12 ≤ opNumber w ∨ rsvNumber w ≠ 0 ∨ 2 ^ operandWidth (opNumber w) ≤ argNumber w

end Sys2Proof.Machine
end

