-- ==== Sys2Proof/Certificates/Slice0/Obligations.lean ====
section
/-! DEFINITION. The statements for the provers, from the numbered rules of spec/. A response word is written
as its number: DATA for a completed command, 0x90000000, 0xA0000000 and 0xB0000000 for the three
faults (30_encoding.md R93; 60_exceptions.md R211). A frame is written `t = { s with ... }`: every field
not named there is unchanged. The fields `cmds` (words the host has lined up) and `rsps` (words returned)
are the model's own view of the command port, log entry 1: `s.rsps ++ [rw]` reads "and rw is returned". -/

open Sys2Proof Sys2Proof.Machine

/-! ### Encoding -/

/-- 30_encoding.md R91, R94, R96: the word of a command decodes to that command, with every operand at every
value its field admits. -/
def Obligations.EveryCommandDecodesFromItsWord : Prop :=
  ∀ i : Instr, i.wellFormed = true ∧ decode (encode i) = .command i

/-- 30_encoding.md R97: a word that is a command is the word of that command, so no two words are one command
and no bit of an accepted word is ignored. -/
def Obligations.AcceptedWordIsTheWordOfItsCommand : Prop :=
  ∀ (w : Word) (i : Instr), decode w = .command i → encode i = w

/-- 30_encoding.md R96: "a word W selects the command when `W & mask = match`", for the twelve rows. -/
def Obligations.OpcodeMapSelectsTheRow : Prop :=
  ∀ (w : Word), ∀ row ∈
    [(Mnemonic.nop, 0x00000000#32, 0xFFFFFFFF#32), (Mnemonic.init, 0x10000000#32, 0xFFFFFFFF#32),
     (Mnemonic.capt, 0x20000000#32, 0xFFFFFFFE#32), (Mnemonic.setpol, 0x30000000#32, 0xFFFFFFFE#32),
     (Mnemonic.setmaxb, 0x40000000#32, 0xFFFF0000#32), (Mnemonic.extract, 0x50000000#32, 0xFF000000#32),
     (Mnemonic.validate, 0x60000000#32, 0xFFFFFFFF#32), (Mnemonic.rdbit, 0x70000000#32, 0xFF000000#32),
     (Mnemonic.rdframe, 0x80000000#32, 0xFFFF0000#32), (Mnemonic.rdbody, 0x90000000#32, 0xFFFF0000#32),
     (Mnemonic.rdreg, 0xA0000000#32, 0xFFFFFFF0#32), (Mnemonic.clrerr, 0xB0000000#32, 0xFFFFFFF8#32)],
    (∃ i, decode w = .command i ∧ i.mnemonic = row.1) ↔ w &&& row.2.2 = row.2.1

/-- 30_encoding.md R97: the decoder's checks, in order, and otherwise the command of row OP with its
operand. -/
def Obligations.DecoderChecksInOrder : Prop :=
  ∀ w : Word,
    (12 ≤ opNumber w → decode w = .illegal .reservedOpcode) ∧
    (opNumber w < 12 → rsvNumber w ≠ 0 → decode w = .illegal .rsvNotZero) ∧
    (opNumber w < 12 → rsvNumber w = 0 → 2 ^ operandWidth (opNumber w) ≤ argNumber w →
      decode w = .illegal .reservedArgBit) ∧
    (¬ IllegalWord w → ∃ i, decode w = .command i ∧ i.mnemonic.opcode.toNat = opNumber w ∧
      i.text.operand.getD 0 = argNumber w)

/-- 30_encoding.md R102: a well-formed written command stands for one word, its row's word with the operand
added; an ill-formed one is refused. -/
def Obligations.WrittenCommandStandsForOneWord : Prop :=
  ∀ t : CommandText,
    (t.wellFormed = true → ∃ i, t.instr? = some i ∧ i.text = t ∧
      (encode i).toNat = t.mnemonic.matchWord.toNat + t.operand.getD 0) ∧
    (t.wellFormed = false → t.instr? = none)

/-- The example words of 30_encoding.md R99, 40_capture.md, 41_extract.md, 42_validate.md and 43_control.md
decode to what they stand for. -/
def Obligations.ExampleWordsDecode : Prop :=
  decode 0x00000000 = .command .nop ∧ decode 0x10000000 = .command .init ∧
  decode 0x20000000 = .command (.capt false) ∧ decode 0x30000001 = .command (.setpol true) ∧
  decode 0x40002711 = .command (.setmaxb 10001) ∧ decode 0x5000000C = .command (.extract 12) ∧
  decode 0x60000000 = .command .validate ∧ decode 0x70000036 = .command (.rdbit 54) ∧
  decode 0x80000003 = .command (.rdframe 3) ∧ decode 0x90000002 = .command (.rdbody 2) ∧
  decode 0xA0000007 = .command (.rdreg 7) ∧ decode 0xB0000001 = .command (.clrerr 1) ∧
  decode 0x01000000 = .illegal .rsvNotZero ∧ decode 0x20000002 = .illegal .reservedArgBit ∧
  decode 0x40010000 = .illegal .reservedArgBit ∧ decode 0xE1234567 = .illegal .reservedOpcode

/-- 30_encoding.md R102, R103: lines of text and the words they stand for. -/
def Obligations.ExampleLinesAssemble : Prop :=
  lineWords? "EXTRACT 12" = some [0x5000000C] ∧ lineWords? "RDREG POS ; the position" = some [0xA0000004] ∧
  lineWords? "TRY 1, 12" = some [0x30000001, 0x5000000C, 0x60000000] ∧
  lineWords? "CAPTS \"10 1\"" = some [0x20000001, 0x20000000, 0x20000001] ∧
  lineWords? "CAPT 2" = none ∧ lineWords? "NOP 0" = none

/-! ### The step and the command port -/

/-- 00_scope.md R15; 30_encoding.md R90, R97: a step on an accepted word that decodes to a command is that
command, executed with the word taken off the port. -/
def Obligations.StepRunsTheDecodedCommand : Prop :=
  ∀ (s : State) (w : Word) (rest : List HostEvent) (i : Instr),
    s.cmds = .command w :: rest → decode w = .command i → step s = exec i { s with cmds := rest }

/-- 30_encoding.md R98, R99: an illegal word "raises Fault(1) ILLEGAL, changes no state but ERR bit 0, and
returns RW = 0x90000000". -/
def Obligations.IllegalWordIsRefused : Prop :=
  ∀ (s : State) (w : Word) (rest : List HostEvent), s.cmds = .command w :: rest → IllegalWord w →
    step s = .next { s with cmds := rest, err := s.err ||| 0b001, rsps := s.rsps ++ [0x90000000] }

/-- 60_exceptions.md R226: between commands the block is idle and keeps all state. The idle step itself is
the model's (log entry 2). -/
def Obligations.IdleKeepsAllState : Prop := ∀ s : State, s.cmds = [] → step s = .next s

/-- 10_state.md R42: the values after a hardware reset and after INIT. -/
def Obligations.ResetAndInitLeaveTheResetValues : Prop :=
  State.reset.AtReset ∧
  (∀ (s : State) (running : Option Word) (presented : List Word) (rest : List HostEvent),
    s.cmds = .hardReset running presented :: rest → ∃ t, step s = .next t ∧ t.AtReset) ∧
  (∀ s : State, ∃ t, exec .init s = .next t ∧ t.AtReset)

/-- 70_reset_and_hazards.md R250: a hardware reset leaves the reset values whatever command was running; that
command returns no response and none of its writes survive, and no presented word is accepted. That the
instance's parameters and the port's later events stay is the model's (log entries 1, 3, 5). -/
def Obligations.HardResetAbandonsTheRunningCommand : Prop :=
  ∀ (s : State) (running : Option Word) (presented : List Word) (rest : List HostEvent),
    s.cmds = .hardReset running presented :: rest →
    step s = .next { State.reset with
      cfg := s.cfg, maxb := s.cfg.fdepth, cmds := rest, rsps := s.rsps }

/-- 00_scope.md R15: `step` is total; no state, event or word ends a run. -/
def Obligations.EveryStateIsSafe : Prop := ∀ s : State, s.Safe

/-- 30_encoding.md R90, R93: "every accepted command gets exactly one response", and the response is a 24-bit
DATA or one of the three fault words. -/
def Obligations.EveryAcceptedWordGetsOneResponse : Prop :=
  ∀ (s : State) (w : Word) (rest : List HostEvent), s.cmds = .command w :: rest →
    ∃ t rw, step s = .next t ∧ t.cmds = rest ∧ t.rsps = s.rsps ++ [rw] ∧
      (rw.toNat < 2 ^ 24 ∨ rw = 0x90000000 ∨ rw = 0xA0000000 ∨ rw = 0xB0000000)

/-! ### Control commands -/

/-- 43_control.md R191: NOP returns 0; it "reads nothing, writes nothing, faults never". -/
def Obligations.NopChangesNothing : Prop :=
  encode .nop = 0x00000000 ∧
  ∀ s : State, exec .nop s = .next { s with rsps := s.rsps ++ [0x00000000] }

/-- 43_control.md R192: INIT writes every register its reset value, empties both stores and returns 0. -/
def Obligations.InitWritesEveryRegister : Prop :=
  encode .init = 0x10000000 ∧
  ∀ s : State, exec .init s = .next
    { s with
      lbl := [], pol := false, maxb := s.cfg.fdepth, fb := [], pos := 0, halt := .none
      vres := .none, vrev := false, vinit := false, blen := 0, err := 0b000
      rsps := s.rsps ++ [0x00000000] }

/-- 43_control.md R194 with the layout of 10_state.md R38: RDREG returns the register, and faults for the
numbers 12 to 15. -/
def Obligations.RdregReadsTheRegister : Prop :=
  (∀ r : BitVec 4, encode (.rdreg r) = BitVec.ofNat 32 (0xA0000000 + r.toNat)) ∧
  ∀ (s : State) (r : BitVec 4), s.Inv →
    let halt := match s.halt with | .none => 0 | .cap => 1 | .short => 2 | .start => 3 | .stop => 4
    let vres := match s.vres with | .none => 0 | .ok => 1 | .tooShort => 2 | .mismatch => 3
    match [0x4C5301, s.len, s.pol.toNat, s.maxb.toNat, s.pos.toNat, s.fcnt, halt,
        vres + 4 * s.vrev.toNat + 8 * s.vinit.toNat, s.blen.toNat, s.err.toNat, s.cfg.ldepth.toNat,
        s.cfg.fdepth.toNat][r.toNat]? with
    | some value => exec (.rdreg r) s = .next { s with rsps := s.rsps ++ [BitVec.ofNat 32 value] }
    | none => exec (.rdreg r) s =
        .next { s with err := s.err ||| 0b010, rsps := s.rsps ++ [0xA0000000] }

/-- 43_control.md R196: each ERR bit whose mask bit is 1 becomes 0, the others stay, and the new ERR is
returned. -/
def Obligations.ClrerrClearsTheMaskedBits : Prop :=
  (∀ m : BitVec 3, encode (.clrerr m) = BitVec.ofNat 32 (0xB0000000 + m.toNat)) ∧
  ∀ (s : State) (m : BitVec 3), ∃ t, exec (.clrerr m) s = .next t ∧
    t = { s with err := t.err, rsps := t.rsps } ∧
    (∀ k < 3, t.err.getLsbD k = (s.err.getLsbD k && !m.getLsbD k)) ∧
    t.rsps = s.rsps ++ [BitVec.ofNat 32 t.err.toNat]

/-! ### Bit-decision register -/

/-- 40_capture.md R121: a full store refuses the label with OVF; otherwise the raw label is stored at LEN,
LEN goes up by one, and the new LEN is returned; a full store stays full until INIT (or reset), so every
later CAPT faults the same way. -/
def Obligations.CaptAppendsOneLabel : Prop :=
  (∀ b : Bool, encode (.capt b) = BitVec.ofNat 32 (0x20000000 + b.toNat)) ∧
  ∀ (s : State) (b : Bool), s.Inv →
    (s.len = s.cfg.ldepth.toNat →
      exec (.capt b) s = .next { s with err := s.err ||| 0b100, rsps := s.rsps ++ [0xB0000000] }) ∧
    (s.len ≠ s.cfg.ldepth.toNat → ∃ t, exec (.capt b) s = .next t ∧
      t = { s with lbl := t.lbl, rsps := t.rsps } ∧ t.len = s.len + 1 ∧ t.labelAt s.len = some b ∧
      (∀ i, i ≠ s.len → t.labelAt i = s.labelAt i) ∧
      t.rsps = s.rsps ++ [BitVec.ofNat 32 (s.len + 1)]) ∧
    (s.len = s.cfg.ldepth.toNat → ∀ i t, i ≠ .init → exec i s = .next t → t.len = t.cfg.ldepth.toNat)

/-- 70_reset_and_hazards.md R262: from a full label store, every step but INIT and a hardware reset leaves
the stored labels as they are, and every CAPT word is refused with OVF. -/
def Obligations.FullLabelStoreStaysFull : Prop :=
  ∀ s t : State, s.len = s.cfg.ldepth.toNat → step s = .next t →
    (∀ running presented rest, s.cmds ≠ .hardReset running presented :: rest) →
    (∀ rest, s.cmds ≠ .command 0x10000000 :: rest) →
    t.lbl = s.lbl ∧ t.len = t.cfg.ldepth.toNat ∧
    (∀ b rest, s.cmds = .command (encode (.capt b)) :: rest →
      t = { s with cmds := rest, err := s.err ||| 0b100, rsps := s.rsps ++ [0xB0000000] })

/-- 40_capture.md R123: SETPOL writes POL only and returns it; it sets, it does not toggle, and the stored
labels are not rewritten. -/
def Obligations.SetpolWritesPolOnly : Prop :=
  (∀ b : Bool, encode (.setpol b) = BitVec.ofNat 32 (0x30000000 + b.toNat)) ∧
  ∀ (s : State) (b : Bool), exec (.setpol b) s =
    .next { s with pol := b, rsps := s.rsps ++ [if b then 0x00000001 else 0x00000000] }

/-- 40_capture.md R125 with 00_scope.md R13: RDBIT returns LBL[idx] ^ POL, and faults at LEN and beyond. -/
def Obligations.RdbitReadsTheCommittedBit : Prop :=
  (∀ idx : Data, encode (.rdbit idx) = BitVec.ofNat 32 (0x70000000 + idx.toNat)) ∧
  ∀ (s : State) (idx : Data),
    (∀ label, s.labelAt idx.toNat = some label → exec (.rdbit idx) s =
      .next { s with rsps := s.rsps ++ [if label = s.pol then 0x00000000 else 0x00000001] }) ∧
    (s.len ≤ idx.toNat → exec (.rdbit idx) s =
      .next { s with err := s.err ||| 0b010, rsps := s.rsps ++ [0xA0000000] }) ∧
    (idx.toNat < s.len → ∃ label, s.labelAt idx.toNat = some label)

/-- 40_capture.md R124: with every label and POL complemented, EXTRACT and RDBIT give the same results. -/
def Obligations.PolarityInvariance : Prop :=
  ∀ s : State, let s' := { s with lbl := s.lbl.map not, pol := !s.pol }
    (∀ i, s'.bit? i = s.bit? i) ∧
    ∀ idx : Data, ∀ i ∈ [Instr.extract idx, Instr.rdbit idx],
      ∃ t, exec i s = .next t ∧ exec i s' = .next { t with lbl := s.lbl.map not, pol := !s.pol }

/-- 20_memory.md R61; 10_state.md R23: no step but INIT and a hardware reset removes or changes a stored
label, and a step stores at most one. -/
def Obligations.StoredLabelsNeverChange : Prop :=
  ∀ (s t : State), step s = .next t →
    (∀ running presented rest, s.cmds ≠ .hardReset running presented :: rest) →
    (∀ rest, s.cmds ≠ .command 0x10000000 :: rest) →
    s.lbl <+: t.lbl ∧ t.len ≤ s.len + 1

/-! ### UART frame extractor -/

/-- 41_extract.md R141: a cap above FDEPTH is refused and MAXB keeps its value; any other is written and
returned, and nothing else changes. -/
def Obligations.SetmaxbWritesOrRefuses : Prop :=
  (∀ h : Half, encode (.setmaxb h) = BitVec.ofNat 32 (0x40000000 + h.toNat)) ∧
  ∀ (s : State) (h : Half),
    (s.cfg.fdepth.toNat < h.toNat → exec (.setmaxb h) s =
      .next { s with err := s.err ||| 0b010, rsps := s.rsps ++ [0xA0000000] }) ∧
    (h.toNat ≤ s.cfg.fdepth.toNat → exec (.setmaxb h) s =
      .next { s with maxb := h, rsps := s.rsps ++ [BitVec.ofNat 32 h.toNat] })

/-- 41_extract.md R143, R144, R145: EXTRACT accepts n characters at a stride of ten from idx, each with start
bit 0, stop bit 1 and its data bits packed most significant first, and halts at the first character it
cannot accept, with the cause R144 gives; POS, FCNT, HALT and the response follow, the validator's
registers are reset, and nothing else changes. -/
def Obligations.ExtractAcceptsCharactersAndHalts : Prop :=
  (∀ idx : Data, encode (.extract idx) = BitVec.ofNat 32 (0x50000000 + idx.toNat)) ∧
  ∀ (s : State) (idx : Data), s.Inv →
    ∃ (t : State) (n : Nat) (code : Nat),
      exec (.extract idx) s = .next t ∧
      t = { s with
        fb := t.fb, pos := t.pos, halt := t.halt, rsps := t.rsps
        vres := .none, vrev := false, vinit := false, blen := 0 } ∧
      t.fcnt = n ∧ t.pos.toNat = idx.toNat + 10 * n ∧
      t.rsps = s.rsps ++ [BitVec.ofNat 32 (code * 65536 + n)] ∧
      (∀ j < n,
        let p := idx.toNat + 10 * j
        j < s.maxb.toNat ∧ p + 10 ≤ s.len ∧ s.bit? p = some false ∧ s.bit? (p + 9) = some true ∧
        ∃ b, t.frameAt j = some b ∧ ∀ k < 8, s.bit? (p + 1 + k) = some (b.getLsbD (7 - k))) ∧
      (let p := idx.toNat + 10 * n
       match t.halt with
       | .none => False
       | .cap => code = 1 ∧ n = s.maxb.toNat
       | .short => code = 2 ∧ n < s.maxb.toNat ∧ s.len < p + 10
       | .start => code = 3 ∧ n < s.maxb.toNat ∧ p + 10 ≤ s.len ∧ s.bit? p = some true
       | .stop => code = 4 ∧ n < s.maxb.toNat ∧ p + 10 ≤ s.len ∧ s.bit? p = some false ∧
           s.bit? (p + 9) = some false)

/-- 41_extract.md R150: EXTRACT depends on idx, MAXB, LEN, POL and LBL[idx .. LEN-1] only; a smaller cap gives
a prefix; later labels change nothing but a SHORT halt. -/
def Obligations.ExtractDependsOnItsInputsOnly : Prop :=
  (∀ (s s' t t' : State) (idx : Data), s'.maxb = s.maxb → s'.len = s.len → s'.pol = s.pol →
    s'.lbl.drop idx.toNat = s.lbl.drop idx.toNat →
    exec (.extract idx) s = .next t → exec (.extract idx) s' = .next t' →
    t'.fb = t.fb ∧ t'.pos = t.pos ∧ t'.halt = t.halt) ∧
  (∀ (s t t' : State) (idx : Data) (cap : Half), cap.toNat ≤ s.maxb.toNat →
    exec (.extract idx) s = .next t → exec (.extract idx) { s with maxb := cap } = .next t' →
    t'.fb <+: t.fb) ∧
  (∀ (s t t' : State) (idx : Data) (more : List Bool),
    exec (.extract idx) s = .next t → exec (.extract idx) { s with lbl := s.lbl ++ more } = .next t' →
    t.fb <+: t'.fb ∧ (t.halt ≠ .short → t' = { t with lbl := s.lbl ++ more }))

/-- 41_extract.md R147: RDFRAME returns the byte as extracted, whatever VRES is, and faults at FCNT and
beyond. -/
def Obligations.RdframeReadsTheFrameByte : Prop :=
  (∀ h : Half, encode (.rdframe h) = BitVec.ofNat 32 (0x80000000 + h.toNat)) ∧
  ∀ (s : State) (h : Half),
    (∀ b, s.frameAt h.toNat = some b → exec (.rdframe h) s =
      .next { s with rsps := s.rsps ++ [BitVec.ofNat 32 b.toNat] }) ∧
    (s.fcnt ≤ h.toNat → exec (.rdframe h) s =
      .next { s with err := s.err ||| 0b010, rsps := s.rsps ++ [0xA0000000] }) ∧
    (h.toNat < s.fcnt → ∃ b, s.frameAt h.toNat = some b)

/-! ### CRC/checksum validator -/

/-- 42_validate.md R161: `rev8(b)` has bit i equal to bit 7-i of b, reversing twice is nothing, and exactly
the sixteen palindromes are their own reversal. -/
def Obligations.Rev8ReversesTheBits : Prop :=
  ∀ b : Byte, (∀ k < 8, (rev8 b).getLsbD k = b.getLsbD (7 - k)) ∧ rev8 (rev8 b) = b ∧
    (rev8 b = b ↔ b ∈ [0x00, 0x18, 0x24, 0x3C, 0x42, 0x5A, 0x66, 0x7E, 0x81, 0x99, 0xA5, 0xBD, 0xC3, 0xDB,
      0xE7, 0xFF])

/-- 42_validate.md R163: the checksum of no bytes is the initial value; one more byte enters at bits 15:8 and
is shifted through eight times, the polynomial 0x1021 applied when the bit shifted out is 1. The shift
direction, the order in which the bits enter and the missing final exclusive-or are from general knowledge
(93_implementation_defined.md G1; PRESUMED, log entry 7). -/
def Obligations.CrcShiftsEachByteThrough : Prop :=
  ∀ (start : Half) (m : List Byte) (b : Byte),
    let shift := fun (x : Half) => if x.getLsbD 15 then (x <<< 1) ^^^ 0x1021#16 else x <<< 1
    crc16 start [] = start ∧
    crc16 start (m ++ [b]) =
      shift (shift (shift (shift (shift (shift (shift (shift
        (crc16 start m ^^^ (b.setWidth 16 <<< 8)))))))))

/-- 42_validate.md R164: the table of checksum values, and the eight shifts for "A". They hold only under the
bit order of R163, which is from general knowledge (93_implementation_defined.md G1; PRESUMED, log
entry 7). -/
def Obligations.CrcTableValues : Prop :=
  crc16 0x0000 [] = 0x0000 ∧ crc16 0xFFFF [] = 0xFFFF ∧
  crc16 0x0000 [0x00] = 0x0000 ∧ crc16 0xFFFF [0x00] = 0xE1F0 ∧
  crc16 0x0000 [0x41] = 0x58E5 ∧ crc16 0xFFFF [0x41] = 0xB915 ∧
  crc16 0x0000 [0x48, 0x69] = 0x79EA ∧ crc16 0xFFFF [0x48, 0x69] = 0x64E5 ∧
  crc16 0x0000 [0x68, 0x65, 0x6C, 0x6C, 0x6F, 0x0A] = 0x2A65 ∧
  crc16 0xFFFF [0x68, 0x65, 0x6C, 0x6C, 0x6F, 0x0A] = 0x2475 ∧
  crc16 0x0000 [0x31, 0x32, 0x33, 0x34, 0x35, 0x36, 0x37, 0x38, 0x39] = 0x31C3 ∧
  crc16 0xFFFF [0x31, 0x32, 0x33, 0x34, 0x35, 0x36, 0x37, 0x38, 0x39] = 0x29B1 ∧
  [1, 2, 3, 4, 5, 6, 7, 8].map (fun t => Nat.repeat crcShift t 0x4100) =
    [0x8200, 0x1421, 0x2842, 0x5084, 0xA108, 0x5231, 0xA462, 0x58E5]

/-- 42_validate.md R166 with R162, R165 and R167: fewer than three bytes are TOO_SHORT; else the first of the
four combinations, in the order (0,0), (0,1), (1,0), (1,1), whose checksum of the body is the trailer is
reported, and MISMATCH if there is none; only the validator's registers and the response change. -/
def Obligations.ValidateReportsTheFirstMatch : Prop :=
  encode .validate = 0x60000000 ∧
  ∀ s : State, s.Inv →
    (s.fcnt < 3 → exec .validate s = .next
      { s with vres := .tooShort, vrev := false, vinit := false, blen := 0, rsps := s.rsps ++ [0x00020000] }) ∧
    (∀ (body : List Byte) (hi lo : Byte), body ≠ [] → s.fb = body ++ [hi, lo] →
      let view := fun (r : Bool) (b : Byte) => if r then rev8 b else b
      let fits := fun (r v : Bool) =>
        crc16 (if v then 0xFFFF else 0x0000) (body.map (view r)) = view r hi ++ view r lo
      (∀ r v, fits r v → (∀ r' v', 2 * r'.toNat + v'.toNat < 2 * r.toNat + v.toNat → ¬ fits r' v') →
        exec .validate s = .next
          { s with
            vres := .ok, vrev := r, vinit := v, blen := BitVec.ofNat 16 (s.fcnt - 2)
            rsps := s.rsps ++
              [BitVec.ofNat 32 (v.toNat * 2 ^ 19 + r.toNat * 2 ^ 18 + 2 ^ 16 + (s.fcnt - 2))] }) ∧
      ((∀ r v, ¬ fits r v) → exec .validate s = .next
        { s with
          vres := .mismatch, vrev := false, vinit := false, blen := 0, rsps := s.rsps ++ [0x00030000] })) ∧
    (3 ≤ s.fcnt → ∃ (body : List Byte) (hi lo : Byte), body ≠ [] ∧ s.fb = body ++ [hi, lo])

/-- 42_validate.md R169: on a frame of bytes with rev8(b) = b, a match is reported with VREV = 0. -/
def Obligations.PalindromesMatchAsParsed : Prop :=
  ∀ s : State, (∀ b ∈ s.fb, rev8 b = b) → ∃ t, exec .validate s = .next t ∧ t.vrev = false

/-- 42_validate.md R166: VALIDATE may be repeated and gives the same result each time. -/
def Obligations.ValidateMayBeRepeated : Prop :=
  ∀ s : State, ∃ t rw, exec .validate s = .next t ∧ t.rsps = s.rsps ++ [rw] ∧
    exec .validate t = .next { t with rsps := t.rsps ++ [rw] }

/-- 42_validate.md R171: after one bit of one body byte of a frame that matches with (0, 0) is complemented,
the trailer unchanged, combination (0, 0) no longer matches. -/
def Obligations.OneCorruptedBodyBitBreaksTheMatch : Prop :=
  ∀ (s t : State) (front back : List Byte) (b hi lo : Byte) (k : Nat), k < 8 →
    s.fb = front ++ b :: (back ++ [hi, lo]) →
    exec .validate s = .next t → t.vres = .ok → t.vrev = false → t.vinit = false →
    ∃ u, exec .validate { s with fb := front ++ (b ^^^ (1#8 <<< k)) :: (back ++ [hi, lo]) } = .next u ∧
      ¬ (u.vres = .ok ∧ u.vrev = false ∧ u.vinit = false)

/-- 42_validate.md R170: RDBODY faults unless VRES is OK and h is below BLEN; then it returns byte h of the
frame, bit-reversed when VREV = 1. -/
def Obligations.RdbodyReadsTheBodyByte : Prop :=
  (∀ h : Half, encode (.rdbody h) = BitVec.ofNat 32 (0x90000000 + h.toNat)) ∧
  ∀ (s : State) (h : Half), s.Inv →
    (s.vres ≠ .ok ∨ s.blen.toNat ≤ h.toNat → exec (.rdbody h) s =
      .next { s with err := s.err ||| 0b010, rsps := s.rsps ++ [0xA0000000] }) ∧
    (s.vres = .ok → h.toNat < s.blen.toNat → ∃ b, s.frameAt h.toNat = some b ∧ exec (.rdbody h) s =
      .next { s with rsps := s.rsps ++ [BitVec.ofNat 32 (if s.vrev then rev8 b else b).toNat] })

/-- 70_reset_and_hazards.md R257: after an EXTRACT, VRES = 0; as long as VRES is not OK, RDBODY faults, and no
command but VALIDATE makes it OK. -/
def Obligations.ExtractInvalidatesTheBody : Prop :=
  (∀ (s : State) (idx : Data), ∃ t, exec (.extract idx) s = .next t ∧ t.vres = .none) ∧
  (∀ (s : State) (h : Half), s.vres ≠ .ok → exec (.rdbody h) s =
    .next { s with err := s.err ||| 0b010, rsps := s.rsps ++ [0xA0000000] }) ∧
  (∀ (s t : State) (i : Instr), s.vres ≠ .ok → i ≠ .validate → exec i s = .next t → t.vres ≠ .ok)

/-! ### Faults -/

/-- 60_exceptions.md R211: which words raise which fault, by the response returned. -/
def Obligations.FaultsAreRaisedWhereListed : Prop :=
  ∀ (s t : State) (w : Word) (rest : List HostEvent), s.Inv → s.cmds = .command w :: rest →
    step s = .next t →
    (t.rsps = s.rsps ++ [0x90000000] ↔ IllegalWord w) ∧
    (t.rsps = s.rsps ++ [0xA0000000] ↔
      (∃ h, decode w = .command (.setmaxb h) ∧ s.cfg.fdepth.toNat < h.toNat) ∨
      (∃ idx, decode w = .command (.rdbit idx) ∧ s.len ≤ idx.toNat) ∨
      (∃ h, decode w = .command (.rdframe h) ∧ s.fcnt ≤ h.toNat) ∨
      (∃ h, decode w = .command (.rdbody h) ∧ (s.vres ≠ .ok ∨ s.blen.toNat ≤ h.toNat)) ∨
      (∃ r, decode w = .command (.rdreg r) ∧ 12 ≤ r.toNat)) ∧
    (t.rsps = s.rsps ++ [0xB0000000] ↔
      ∃ b, decode w = .command (.capt b) ∧ s.len = s.cfg.ldepth.toNat)

/-- 60_exceptions.md R212; 00_scope.md R14: a refused word writes its own ERR bit and nothing else; a bit
already 1 stays 1. -/
def Obligations.FaultWritesOneErrBitOnly : Prop :=
  ∀ (s t : State) (w : Word) (rest : List HostEvent) (fcode : Nat), s.cmds = .command w :: rest →
    step s = .next t → 1 ≤ fcode → fcode ≤ 3 → t.rsps = s.rsps ++ [BitVec.ofNat 32 (2 ^ 31 + fcode * 2 ^ 28)] →
    t = { s with cmds := rest, err := s.err ||| 1#3 <<< (fcode - 1), rsps := t.rsps }

/-- 60_exceptions.md R217: the command after a refused one runs as if the refused one had been a NOP, except
that ERR differs. -/
def Obligations.RefusedWordActsAsNopButForErr : Prop :=
  ∀ (s t n : State) (w : Word) (rest : List HostEvent) (fcode : Nat), s.cmds = .command w :: rest →
    step s = .next t → t.rsps = s.rsps ++ [BitVec.ofNat 32 (2 ^ 31 + fcode * 2 ^ 28)] → fcode < 8 →
    step { s with cmds := .command 0x00000000 :: rest } = .next n →
    t = { n with err := t.err, rsps := t.rsps }

/-- 10_state.md R36: "No rule of any command reads ERR to decide what to do: the flags record, they do not
gate." Changing ERR before a command changes ERR and the response alone, and the response only of the
two commands that return ERR. -/
def Obligations.ErrNeverGates : Prop :=
  ∀ (s : State) (i : Instr) (e : BitVec 3),
    ∃ t u, exec i s = .next t ∧ exec i { s with err := e } = .next u ∧
      u = { t with err := u.err, rsps := u.rsps } ∧
      (i ≠ .rdreg 9 → (∀ m, i ≠ .clrerr m) → u.rsps = t.rsps)

/-- 60_exceptions.md R214: no content of the stores makes EXTRACT or VALIDATE fault. -/
def Obligations.DataNeverFaults : Prop :=
  ∀ (s : State), ∀ i : Instr, (i = .validate ∨ ∃ idx, i = .extract idx) →
    ∃ t rw, exec i s = .next t ∧ t.rsps = s.rsps ++ [rw] ∧ rw.toNat < 2 ^ 24 ∧ t.err = s.err

/-! ### The whole machine -/

/-- 10_state.md R38, R37: each register is written only by the commands that own it, and the parameters by
none. -/
def Obligations.RegistersAreWrittenByTheirOwners : Prop :=
  ∀ (s t : State) (i : Instr), exec i s = .next t →
    t.cfg = s.cfg ∧ t.cmds = s.cmds ∧
    ((∀ b, i ≠ .capt b) → i ≠ .init → t.lbl = s.lbl) ∧
    ((∀ b, i ≠ .setpol b) → i ≠ .init → t.pol = s.pol) ∧
    ((∀ h, i ≠ .setmaxb h) → i ≠ .init → t.maxb = s.maxb) ∧
    ((∀ idx, i ≠ .extract idx) → i ≠ .init → t.fb = s.fb ∧ t.pos = s.pos ∧ t.halt = s.halt) ∧
    ((∀ idx, i ≠ .extract idx) → i ≠ .validate → i ≠ .init →
      t.vres = s.vres ∧ t.vrev = s.vrev ∧ t.vinit = s.vinit ∧ t.blen = s.blen) ∧
    ((∀ m, i ≠ .clrerr m) → i ≠ .init → s.err &&& t.err = s.err)

/-- 20_memory.md R69: a read command that does not fault changes no state, and repeating it returns the same
value. -/
def Obligations.ReadsHaveNoSideEffect : Prop :=
  ∀ (s t : State) (rw : Word) (idx : Data) (h : Half) (r : BitVec 4),
    ∀ i ∈ [Instr.rdbit idx, Instr.rdframe h, Instr.rdbody h, Instr.rdreg r],
    exec i s = .next t → t.rsps = s.rsps ++ [rw] → rw.toNat < 2 ^ 24 →
    t = { s with rsps := t.rsps } ∧ exec i t = .next { t with rsps := t.rsps ++ [rw] }

/-- The reset state meets the invariants of 10_state.md R23, R29 and R35. -/
def Obligations.ResetMeetsTheInvariant : Prop := State.reset.Inv

/-- 60_exceptions.md R233; 10_state.md R23, R29, R35: every step keeps the invariants of the three units. -/
def Obligations.EveryStepKeepsTheInvariant : Prop :=
  ∀ s t : State, s.Inv → step s = .next t → t.Inv

/-! ### The host-side procedures -/

/-- 60_exceptions.md R228, R229: a candidate is a 0 that ends a run of at least the threshold of ones, two
kept candidates are at least the distance apart, and a 0 that ends such a run and is not kept stands
closer than the distance behind a kept one. That the earlier of two close candidates is kept, and that the
distance is taken from the last kept one, is R229's own reading of its source (92_eei_decisions.md D24;
DESIGN CHOICE, log entry 13). -/
def Obligations.LocatorFindsRunsAndDeduplicates : Prop :=
  ∀ (p : HostParams) (bits : List Bool),
    let closes := fun (i : Nat) => bits[i]? = some false ∧ p.preambleThreshold ≤ i ∧
      ∀ j < i, i ≤ j + p.preambleThreshold → bits[j]? = some true
    (∀ i ∈ locate p bits, closes i) ∧
    (locate p bits).Pairwise (fun a b => a < b ∧ a + p.dedupDistance ≤ b) ∧
    (∀ i, closes i → i ∉ locate p bits → ∃ a ∈ locate p bits, a < i ∧ i < a + p.dedupDistance)

/-- 60_exceptions.md R228, R230: reading `bit(0 .. LEN-1)` with RDBIT, or a validated body with RDBODY, gives
the host exactly the committed bits or the body, and changes nothing but the responses. So a host that
scans through RDBIT scans the same bits as one that computes them (log entry 13). -/
def Obligations.HostReadsBackTheBitsAndTheBody : Prop :=
  ∀ s : State, s.Inv →
    (∃ t, readBits s = (t, s.bits) ∧ t = { s with rsps := t.rsps }) ∧
    (s.vres = .ok → ∃ t, readBody s =
      (t, (s.fb.take (s.fcnt - 2)).map (fun b => if s.vrev then rev8 b else b)) ∧
      t = { s with rsps := t.rsps })

/-- 60_exceptions.md R227: one unit of a text of t bytes is pre + 10 (t + 2) + post bits. -/
def Obligations.WireUnitLength : Prop :=
  ∀ (pre post : Nat) (text : List Byte),
    (wireUnit pre post text).length = pre + 10 * (text.length + 2) + post

/-- 60_exceptions.md R227 with 41_extract.md R143 and 42_validate.md R166, R170 (the source's round trip, 95_test_vectors.md
S1): wherever a unit of the wire format stands in the committed bit sequence, under either polarity,
EXTRACT at its first start bit, VALIDATE and RDBODY give back the text. Both sides use crc16 with the bit
order of log entry 7 (PRESUMED). -/
def Obligations.WireFormatRoundTrip : Prop :=
  ∀ (s : State) (idx : Data) (front back : List Bool) (pre post : Nat) (text : List Byte), s.Inv →
    s.bits = front ++ (wireUnit pre post text ++ back) → 1 ≤ post →
    idx.toNat = front.length + pre → 1 ≤ text.length → text.length + 2 ≤ s.maxb.toNat →
    ∃ t u, exec (.extract idx) s = .next t ∧ exec .validate t = .next u ∧
      u.vres = .ok ∧ u.vrev = false ∧ u.vinit = false ∧ u.blen.toNat = text.length ∧
      ∀ (h : Half) (b : Byte), text[h.toNat]? = some b →
        exec (.rdbody h) u = .next { u with rsps := u.rsps ++ [BitVec.ofNat 32 b.toNat] }
end

