-- ==== Sys2Proof/Laws/Decode.lean ====
section
/-! SUPPORT. The fields of a word as numbers, and the number of a word put together from its fields
(30_encoding.md R91): with these, a fact about words is a fact about numbers. -/

namespace Sys2Proof.Laws

theorem opField_toNat (w : Word) : (opField w).toNat = w.toNat / 2 ^ 28 := by
  have := w.isLt
  simp only [opField, BitVec.extractLsb'_toNat, Nat.shiftRight_eq_div_pow]
  omega

theorem rsvField_toNat (w : Word) : (rsvField w).toNat = w.toNat / 2 ^ 24 % 16 := by
  simp only [rsvField, BitVec.extractLsb'_toNat, Nat.shiftRight_eq_div_pow]

theorem argField_toNat (w : Word) : (argField w).toNat = w.toNat % 2 ^ 24 := by
  simp only [argField, BitVec.extractLsb'_toNat, Nat.shiftRight_zero]

/-- The number of a word with opcode `op`, RSV = 0 and operand field `arg`. -/
theorem parts_toNat (op : BitVec 4) (arg : Data) :
    (op ++ (0#4 ++ arg) : BitVec (4 + (4 + 24))).toNat = op.toNat * 2 ^ 28 + arg.toNat := by
  have ha := arg.isLt
  rw [BitVec.toNat_append, BitVec.toNat_append, BitVec.toNat_zero, Nat.zero_shiftLeft, Nat.zero_or,
    ← Nat.shiftLeft_add_eq_or_of_lt (by omega), Nat.shiftLeft_eq]

/-- The number of a command word. -/
theorem encode_toNat (i : Instr) : (encode i).toNat = i.mnemonic.opcode.toNat * 2 ^ 28 + i.arg.toNat :=
  parts_toNat _ _

theorem opField_encode (i : Instr) : opField (encode i) = i.mnemonic.opcode := by
  apply BitVec.eq_of_toNat_eq
  have := i.arg.isLt
  rw [opField_toNat, encode_toNat]
  omega

theorem rsvField_encode (i : Instr) : rsvField (encode i) = 0 := by
  apply BitVec.eq_of_toNat_eq
  have := i.arg.isLt
  rw [rsvField_toNat, encode_toNat, BitVec.ofNat_eq_ofNat, BitVec.toNat_zero]
  omega

theorem argField_encode (i : Instr) : argField (encode i) = i.arg := by
  apply BitVec.eq_of_toNat_eq
  have := i.arg.isLt
  rw [argField_toNat, encode_toNat]
  omega

/-- A reserved bit of ARG is set exactly when ARG is too large for the operand field (R94). -/
theorem reservedBitSet_iff (f : Format) (arg : Data) :
    f.reservedBitSet arg = true ↔ 2 ^ f.operandBits ≤ arg.toNat := by
  have ha := arg.isLt
  rw [Format.reservedBitSet, bne_iff_ne, ne_eq, ← BitVec.toNat_inj, BitVec.toNat_ushiftRight,
    Nat.shiftRight_eq_div_pow, BitVec.ofNat_eq_ofNat, BitVec.toNat_zero, Nat.div_eq_zero_iff]
  have := Nat.two_pow_pos f.operandBits
  omega

/-- The opcode map and the opcodes agree (R96). -/
theorem ofOpcode?_opcode (m : Mnemonic) : Mnemonic.ofOpcode? m.opcode = some m := by cases m <;> rfl

/-- An opcode that selects a row is that row's opcode. -/
theorem opcode_of_ofOpcode? {op : BitVec 4} {m : Mnemonic} (h : Mnemonic.ofOpcode? op = some m) :
    m.opcode = op := by
  revert op m
  decide

/-- The reserved opcodes select no row (R98). -/
theorem ofOpcode?_eq_none_iff (op : BitVec 4) : Mnemonic.ofOpcode? op = none ↔ 12 ≤ op.toNat := by
  revert op
  decide

end Sys2Proof.Laws
end

