-- ==== Sys2Proof/Laws/State.lean ====
section
/-! SUPPORT. One lemma per field per update of the state, each true by unfolding once, so that no later proof
unfolds a record update. -/

namespace Sys2Proof.Machine

variable (s : State)

/-! ### State.respond -/

@[simp] theorem State.respond_cfg (rw : Word) : (s.respond rw).cfg = s.cfg := rfl
@[simp] theorem State.respond_lbl (rw : Word) : (s.respond rw).lbl = s.lbl := rfl
@[simp] theorem State.respond_pol (rw : Word) : (s.respond rw).pol = s.pol := rfl
@[simp] theorem State.respond_maxb (rw : Word) : (s.respond rw).maxb = s.maxb := rfl
@[simp] theorem State.respond_fb (rw : Word) : (s.respond rw).fb = s.fb := rfl
@[simp] theorem State.respond_pos (rw : Word) : (s.respond rw).pos = s.pos := rfl
@[simp] theorem State.respond_halt (rw : Word) : (s.respond rw).halt = s.halt := rfl
@[simp] theorem State.respond_vres (rw : Word) : (s.respond rw).vres = s.vres := rfl
@[simp] theorem State.respond_vrev (rw : Word) : (s.respond rw).vrev = s.vrev := rfl
@[simp] theorem State.respond_vinit (rw : Word) : (s.respond rw).vinit = s.vinit := rfl
@[simp] theorem State.respond_blen (rw : Word) : (s.respond rw).blen = s.blen := rfl
@[simp] theorem State.respond_err (rw : Word) : (s.respond rw).err = s.err := rfl
@[simp] theorem State.respond_cmds (rw : Word) : (s.respond rw).cmds = s.cmds := rfl
@[simp] theorem State.respond_rsps (rw : Word) : (s.respond rw).rsps = s.rsps ++ [rw] := rfl

/-! ### State.recordFault -/

@[simp] theorem State.recordFault_cfg (f : CmdFault) : (s.recordFault f).cfg = s.cfg := rfl
@[simp] theorem State.recordFault_lbl (f : CmdFault) : (s.recordFault f).lbl = s.lbl := rfl
@[simp] theorem State.recordFault_pol (f : CmdFault) : (s.recordFault f).pol = s.pol := rfl
@[simp] theorem State.recordFault_maxb (f : CmdFault) : (s.recordFault f).maxb = s.maxb := rfl
@[simp] theorem State.recordFault_fb (f : CmdFault) : (s.recordFault f).fb = s.fb := rfl
@[simp] theorem State.recordFault_pos (f : CmdFault) : (s.recordFault f).pos = s.pos := rfl
@[simp] theorem State.recordFault_halt (f : CmdFault) : (s.recordFault f).halt = s.halt := rfl
@[simp] theorem State.recordFault_vres (f : CmdFault) : (s.recordFault f).vres = s.vres := rfl
@[simp] theorem State.recordFault_vrev (f : CmdFault) : (s.recordFault f).vrev = s.vrev := rfl
@[simp] theorem State.recordFault_vinit (f : CmdFault) : (s.recordFault f).vinit = s.vinit := rfl
@[simp] theorem State.recordFault_blen (f : CmdFault) : (s.recordFault f).blen = s.blen := rfl
@[simp] theorem State.recordFault_err (f : CmdFault) : (s.recordFault f).err = errRecord s.err f := rfl
@[simp] theorem State.recordFault_cmds (f : CmdFault) : (s.recordFault f).cmds = s.cmds := rfl
@[simp] theorem State.recordFault_rsps (f : CmdFault) : (s.recordFault f).rsps = s.rsps := rfl

/-! ### State.appendLabel -/

@[simp] theorem State.appendLabel_cfg (b : Bool) : (s.appendLabel b).cfg = s.cfg := rfl
@[simp] theorem State.appendLabel_lbl (b : Bool) : (s.appendLabel b).lbl = s.lbl ++ [b] := rfl
@[simp] theorem State.appendLabel_pol (b : Bool) : (s.appendLabel b).pol = s.pol := rfl
@[simp] theorem State.appendLabel_maxb (b : Bool) : (s.appendLabel b).maxb = s.maxb := rfl
@[simp] theorem State.appendLabel_fb (b : Bool) : (s.appendLabel b).fb = s.fb := rfl
@[simp] theorem State.appendLabel_pos (b : Bool) : (s.appendLabel b).pos = s.pos := rfl
@[simp] theorem State.appendLabel_halt (b : Bool) : (s.appendLabel b).halt = s.halt := rfl
@[simp] theorem State.appendLabel_vres (b : Bool) : (s.appendLabel b).vres = s.vres := rfl
@[simp] theorem State.appendLabel_vrev (b : Bool) : (s.appendLabel b).vrev = s.vrev := rfl
@[simp] theorem State.appendLabel_vinit (b : Bool) : (s.appendLabel b).vinit = s.vinit := rfl
@[simp] theorem State.appendLabel_blen (b : Bool) : (s.appendLabel b).blen = s.blen := rfl
@[simp] theorem State.appendLabel_err (b : Bool) : (s.appendLabel b).err = s.err := rfl
@[simp] theorem State.appendLabel_cmds (b : Bool) : (s.appendLabel b).cmds = s.cmds := rfl
@[simp] theorem State.appendLabel_rsps (b : Bool) : (s.appendLabel b).rsps = s.rsps := rfl

/-! ### State.setPol -/

@[simp] theorem State.setPol_cfg (b : Bool) : (s.setPol b).cfg = s.cfg := rfl
@[simp] theorem State.setPol_lbl (b : Bool) : (s.setPol b).lbl = s.lbl := rfl
@[simp] theorem State.setPol_pol (b : Bool) : (s.setPol b).pol = b := rfl
@[simp] theorem State.setPol_maxb (b : Bool) : (s.setPol b).maxb = s.maxb := rfl
@[simp] theorem State.setPol_fb (b : Bool) : (s.setPol b).fb = s.fb := rfl
@[simp] theorem State.setPol_pos (b : Bool) : (s.setPol b).pos = s.pos := rfl
@[simp] theorem State.setPol_halt (b : Bool) : (s.setPol b).halt = s.halt := rfl
@[simp] theorem State.setPol_vres (b : Bool) : (s.setPol b).vres = s.vres := rfl
@[simp] theorem State.setPol_vrev (b : Bool) : (s.setPol b).vrev = s.vrev := rfl
@[simp] theorem State.setPol_vinit (b : Bool) : (s.setPol b).vinit = s.vinit := rfl
@[simp] theorem State.setPol_blen (b : Bool) : (s.setPol b).blen = s.blen := rfl
@[simp] theorem State.setPol_err (b : Bool) : (s.setPol b).err = s.err := rfl
@[simp] theorem State.setPol_cmds (b : Bool) : (s.setPol b).cmds = s.cmds := rfl
@[simp] theorem State.setPol_rsps (b : Bool) : (s.setPol b).rsps = s.rsps := rfl

/-! ### State.setMaxb -/

@[simp] theorem State.setMaxb_cfg (h : Half) : (s.setMaxb h).cfg = s.cfg := rfl
@[simp] theorem State.setMaxb_lbl (h : Half) : (s.setMaxb h).lbl = s.lbl := rfl
@[simp] theorem State.setMaxb_pol (h : Half) : (s.setMaxb h).pol = s.pol := rfl
@[simp] theorem State.setMaxb_maxb (h : Half) : (s.setMaxb h).maxb = h := rfl
@[simp] theorem State.setMaxb_fb (h : Half) : (s.setMaxb h).fb = s.fb := rfl
@[simp] theorem State.setMaxb_pos (h : Half) : (s.setMaxb h).pos = s.pos := rfl
@[simp] theorem State.setMaxb_halt (h : Half) : (s.setMaxb h).halt = s.halt := rfl
@[simp] theorem State.setMaxb_vres (h : Half) : (s.setMaxb h).vres = s.vres := rfl
@[simp] theorem State.setMaxb_vrev (h : Half) : (s.setMaxb h).vrev = s.vrev := rfl
@[simp] theorem State.setMaxb_vinit (h : Half) : (s.setMaxb h).vinit = s.vinit := rfl
@[simp] theorem State.setMaxb_blen (h : Half) : (s.setMaxb h).blen = s.blen := rfl
@[simp] theorem State.setMaxb_err (h : Half) : (s.setMaxb h).err = s.err := rfl
@[simp] theorem State.setMaxb_cmds (h : Half) : (s.setMaxb h).cmds = s.cmds := rfl
@[simp] theorem State.setMaxb_rsps (h : Half) : (s.setMaxb h).rsps = s.rsps := rfl

/-! ### State.setVerdict -/

@[simp] theorem State.setVerdict_cfg (a : VRes) (r v : Bool) (n : Half) : (s.setVerdict a r v n).cfg = s.cfg := rfl
@[simp] theorem State.setVerdict_lbl (a : VRes) (r v : Bool) (n : Half) : (s.setVerdict a r v n).lbl = s.lbl := rfl
@[simp] theorem State.setVerdict_pol (a : VRes) (r v : Bool) (n : Half) : (s.setVerdict a r v n).pol = s.pol := rfl
@[simp] theorem State.setVerdict_maxb (a : VRes) (r v : Bool) (n : Half) : (s.setVerdict a r v n).maxb = s.maxb := rfl
@[simp] theorem State.setVerdict_fb (a : VRes) (r v : Bool) (n : Half) : (s.setVerdict a r v n).fb = s.fb := rfl
@[simp] theorem State.setVerdict_pos (a : VRes) (r v : Bool) (n : Half) : (s.setVerdict a r v n).pos = s.pos := rfl
@[simp] theorem State.setVerdict_halt (a : VRes) (r v : Bool) (n : Half) : (s.setVerdict a r v n).halt = s.halt := rfl
@[simp] theorem State.setVerdict_vres (a : VRes) (r v : Bool) (n : Half) : (s.setVerdict a r v n).vres = a := rfl
@[simp] theorem State.setVerdict_vrev (a : VRes) (r v : Bool) (n : Half) : (s.setVerdict a r v n).vrev = r := rfl
@[simp] theorem State.setVerdict_vinit (a : VRes) (r v : Bool) (n : Half) : (s.setVerdict a r v n).vinit = v := rfl
@[simp] theorem State.setVerdict_blen (a : VRes) (r v : Bool) (n : Half) : (s.setVerdict a r v n).blen = n := rfl
@[simp] theorem State.setVerdict_err (a : VRes) (r v : Bool) (n : Half) : (s.setVerdict a r v n).err = s.err := rfl
@[simp] theorem State.setVerdict_cmds (a : VRes) (r v : Bool) (n : Half) : (s.setVerdict a r v n).cmds = s.cmds := rfl
@[simp] theorem State.setVerdict_rsps (a : VRes) (r v : Bool) (n : Half) : (s.setVerdict a r v n).rsps = s.rsps := rfl

/-! ### State.storeFrame -/

@[simp] theorem State.storeFrame_cfg (bytes : List Byte) (p : Data) (c : Halt) : (s.storeFrame bytes p c).cfg = s.cfg := rfl
@[simp] theorem State.storeFrame_lbl (bytes : List Byte) (p : Data) (c : Halt) : (s.storeFrame bytes p c).lbl = s.lbl := rfl
@[simp] theorem State.storeFrame_pol (bytes : List Byte) (p : Data) (c : Halt) : (s.storeFrame bytes p c).pol = s.pol := rfl
@[simp] theorem State.storeFrame_maxb (bytes : List Byte) (p : Data) (c : Halt) : (s.storeFrame bytes p c).maxb = s.maxb := rfl
@[simp] theorem State.storeFrame_fb (bytes : List Byte) (p : Data) (c : Halt) : (s.storeFrame bytes p c).fb = bytes := rfl
@[simp] theorem State.storeFrame_pos (bytes : List Byte) (p : Data) (c : Halt) : (s.storeFrame bytes p c).pos = p := rfl
@[simp] theorem State.storeFrame_halt (bytes : List Byte) (p : Data) (c : Halt) : (s.storeFrame bytes p c).halt = c := rfl
@[simp] theorem State.storeFrame_vres (bytes : List Byte) (p : Data) (c : Halt) : (s.storeFrame bytes p c).vres = s.vres := rfl
@[simp] theorem State.storeFrame_vrev (bytes : List Byte) (p : Data) (c : Halt) : (s.storeFrame bytes p c).vrev = s.vrev := rfl
@[simp] theorem State.storeFrame_vinit (bytes : List Byte) (p : Data) (c : Halt) : (s.storeFrame bytes p c).vinit = s.vinit := rfl
@[simp] theorem State.storeFrame_blen (bytes : List Byte) (p : Data) (c : Halt) : (s.storeFrame bytes p c).blen = s.blen := rfl
@[simp] theorem State.storeFrame_err (bytes : List Byte) (p : Data) (c : Halt) : (s.storeFrame bytes p c).err = s.err := rfl
@[simp] theorem State.storeFrame_cmds (bytes : List Byte) (p : Data) (c : Halt) : (s.storeFrame bytes p c).cmds = s.cmds := rfl
@[simp] theorem State.storeFrame_rsps (bytes : List Byte) (p : Data) (c : Halt) : (s.storeFrame bytes p c).rsps = s.rsps := rfl

/-! ### State.setErr -/

@[simp] theorem State.setErr_cfg (e : BitVec 3) : (s.setErr e).cfg = s.cfg := rfl
@[simp] theorem State.setErr_lbl (e : BitVec 3) : (s.setErr e).lbl = s.lbl := rfl
@[simp] theorem State.setErr_pol (e : BitVec 3) : (s.setErr e).pol = s.pol := rfl
@[simp] theorem State.setErr_maxb (e : BitVec 3) : (s.setErr e).maxb = s.maxb := rfl
@[simp] theorem State.setErr_fb (e : BitVec 3) : (s.setErr e).fb = s.fb := rfl
@[simp] theorem State.setErr_pos (e : BitVec 3) : (s.setErr e).pos = s.pos := rfl
@[simp] theorem State.setErr_halt (e : BitVec 3) : (s.setErr e).halt = s.halt := rfl
@[simp] theorem State.setErr_vres (e : BitVec 3) : (s.setErr e).vres = s.vres := rfl
@[simp] theorem State.setErr_vrev (e : BitVec 3) : (s.setErr e).vrev = s.vrev := rfl
@[simp] theorem State.setErr_vinit (e : BitVec 3) : (s.setErr e).vinit = s.vinit := rfl
@[simp] theorem State.setErr_blen (e : BitVec 3) : (s.setErr e).blen = s.blen := rfl
@[simp] theorem State.setErr_err (e : BitVec 3) : (s.setErr e).err = e := rfl
@[simp] theorem State.setErr_cmds (e : BitVec 3) : (s.setErr e).cmds = s.cmds := rfl
@[simp] theorem State.setErr_rsps (e : BitVec 3) : (s.setErr e).rsps = s.rsps := rfl

/-! ### State.clear -/

@[simp] theorem State.clear_cfg : (s.clear).cfg = s.cfg := rfl
@[simp] theorem State.clear_lbl : (s.clear).lbl = [] := rfl
@[simp] theorem State.clear_pol : (s.clear).pol = false := rfl
@[simp] theorem State.clear_maxb : (s.clear).maxb = s.cfg.fdepth := rfl
@[simp] theorem State.clear_fb : (s.clear).fb = [] := rfl
@[simp] theorem State.clear_pos : (s.clear).pos = 0 := rfl
@[simp] theorem State.clear_halt : (s.clear).halt = .none := rfl
@[simp] theorem State.clear_vres : (s.clear).vres = .none := rfl
@[simp] theorem State.clear_vrev : (s.clear).vrev = false := rfl
@[simp] theorem State.clear_vinit : (s.clear).vinit = false := rfl
@[simp] theorem State.clear_blen : (s.clear).blen = 0 := rfl
@[simp] theorem State.clear_err : (s.clear).err = 0 := rfl
@[simp] theorem State.clear_cmds : (s.clear).cmds = s.cmds := rfl
@[simp] theorem State.clear_rsps : (s.clear).rsps = s.rsps := rfl

/-! ### State.setCmds -/

@[simp] theorem State.setCmds_cfg (evs : List HostEvent) : (s.setCmds evs).cfg = s.cfg := rfl
@[simp] theorem State.setCmds_lbl (evs : List HostEvent) : (s.setCmds evs).lbl = s.lbl := rfl
@[simp] theorem State.setCmds_pol (evs : List HostEvent) : (s.setCmds evs).pol = s.pol := rfl
@[simp] theorem State.setCmds_maxb (evs : List HostEvent) : (s.setCmds evs).maxb = s.maxb := rfl
@[simp] theorem State.setCmds_fb (evs : List HostEvent) : (s.setCmds evs).fb = s.fb := rfl
@[simp] theorem State.setCmds_pos (evs : List HostEvent) : (s.setCmds evs).pos = s.pos := rfl
@[simp] theorem State.setCmds_halt (evs : List HostEvent) : (s.setCmds evs).halt = s.halt := rfl
@[simp] theorem State.setCmds_vres (evs : List HostEvent) : (s.setCmds evs).vres = s.vres := rfl
@[simp] theorem State.setCmds_vrev (evs : List HostEvent) : (s.setCmds evs).vrev = s.vrev := rfl
@[simp] theorem State.setCmds_vinit (evs : List HostEvent) : (s.setCmds evs).vinit = s.vinit := rfl
@[simp] theorem State.setCmds_blen (evs : List HostEvent) : (s.setCmds evs).blen = s.blen := rfl
@[simp] theorem State.setCmds_err (evs : List HostEvent) : (s.setCmds evs).err = s.err := rfl
@[simp] theorem State.setCmds_cmds (evs : List HostEvent) : (s.setCmds evs).cmds = evs := rfl
@[simp] theorem State.setCmds_rsps (evs : List HostEvent) : (s.setCmds evs).rsps = s.rsps := rfl

/-! ### The two length registers and the committed bits -/

@[simp] theorem State.respond_len (rw : Word) : (s.respond rw).len = s.len := rfl
@[simp] theorem State.respond_fcnt (rw : Word) : (s.respond rw).fcnt = s.fcnt := rfl
@[simp] theorem State.respond_bits (rw : Word) : (s.respond rw).bits = s.bits := rfl
@[simp] theorem State.recordFault_len (f : CmdFault) : (s.recordFault f).len = s.len := rfl
@[simp] theorem State.recordFault_fcnt (f : CmdFault) : (s.recordFault f).fcnt = s.fcnt := rfl
@[simp] theorem State.recordFault_bits (f : CmdFault) : (s.recordFault f).bits = s.bits := rfl
@[simp] theorem State.appendLabel_fcnt (b : Bool) : (s.appendLabel b).fcnt = s.fcnt := rfl
@[simp] theorem State.setPol_len (b : Bool) : (s.setPol b).len = s.len := rfl
@[simp] theorem State.setPol_fcnt (b : Bool) : (s.setPol b).fcnt = s.fcnt := rfl
@[simp] theorem State.setMaxb_len (h : Half) : (s.setMaxb h).len = s.len := rfl
@[simp] theorem State.setMaxb_fcnt (h : Half) : (s.setMaxb h).fcnt = s.fcnt := rfl
@[simp] theorem State.setMaxb_bits (h : Half) : (s.setMaxb h).bits = s.bits := rfl
@[simp] theorem State.setVerdict_len (a : VRes) (r v : Bool) (n : Half) : (s.setVerdict a r v n).len = s.len := rfl
@[simp] theorem State.setVerdict_fcnt (a : VRes) (r v : Bool) (n : Half) : (s.setVerdict a r v n).fcnt = s.fcnt := rfl
@[simp] theorem State.setVerdict_bits (a : VRes) (r v : Bool) (n : Half) : (s.setVerdict a r v n).bits = s.bits := rfl
@[simp] theorem State.storeFrame_len (bytes : List Byte) (p : Data) (c : Halt) : (s.storeFrame bytes p c).len = s.len := rfl
@[simp] theorem State.storeFrame_bits (bytes : List Byte) (p : Data) (c : Halt) : (s.storeFrame bytes p c).bits = s.bits := rfl
@[simp] theorem State.setErr_len (e : BitVec 3) : (s.setErr e).len = s.len := rfl
@[simp] theorem State.setErr_fcnt (e : BitVec 3) : (s.setErr e).fcnt = s.fcnt := rfl
@[simp] theorem State.setErr_bits (e : BitVec 3) : (s.setErr e).bits = s.bits := rfl
@[simp] theorem State.setCmds_len (evs : List HostEvent) : (s.setCmds evs).len = s.len := rfl
@[simp] theorem State.setCmds_fcnt (evs : List HostEvent) : (s.setCmds evs).fcnt = s.fcnt := rfl
@[simp] theorem State.setCmds_bits (evs : List HostEvent) : (s.setCmds evs).bits = s.bits := rfl

@[simp] theorem State.appendLabel_len (b : Bool) : (s.appendLabel b).len = s.len + 1 := by
  simp [State.len]

@[simp] theorem State.storeFrame_fcnt (bytes : List Byte) (p : Data) (c : Halt) :
    (s.storeFrame bytes p c).fcnt = bytes.length := rfl

@[simp] theorem State.clear_len : s.clear.len = 0 := rfl

@[simp] theorem State.clear_fcnt : s.clear.fcnt = 0 := rfl

@[simp] theorem State.bits_length : s.bits.length = s.len := by simp [State.bits, State.len]

/-- Setting the pending events twice is setting them once. -/
@[simp] theorem State.setCmds_setCmds (a b : List HostEvent) : (s.setCmds a).setCmds b = s.setCmds b := rfl

end Sys2Proof.Machine
end

