-- ==== Sys2Proof/Laws/Ops.lean ====
section
/-! SUPPORT. What each shared operation can do, said once: completing, refusing, reading an operand, reading
the stores, and that the stores stay within their depths. -/

namespace Sys2Proof.Machine

/-! ### Response words -/

/-- The number of a completed command's response is its DATA (30_encoding.md R93). -/
theorem okWord_toNat (d : Data) : (okWord d).toNat = d.toNat := by
  show (0#8 ++ d : BitVec (8 + 24)).toNat = d.toNat
  rw [BitVec.toNat_append, BitVec.toNat_zero, Nat.zero_shiftLeft, Nat.zero_or]

/-- A completed command's response from its number. -/
theorem okWord_eq (d : Data) : okWord d = BitVec.ofNat 32 d.toNat := by
  apply BitVec.eq_of_toNat_eq
  have := d.isLt
  rw [okWord_toNat, BitVec.toNat_ofNat]
  omega

@[simp] theorem faultWord_illegal : faultWord .illegal = 0x90000000 := by decide
@[simp] theorem faultWord_operand : faultWord .operand = 0xA0000000 := by decide
@[simp] theorem faultWord_ovf : faultWord .ovf = 0xB0000000 := by decide

/-- The FAULT bit tells the two kinds of response apart (30_encoding.md R93). -/
theorem okWord_ne_faultWord (d : Data) (f : CmdFault) : okWord d ≠ faultWord f := by
  intro h
  have h1 := congrArg BitVec.toNat h
  have h2 := d.isLt
  rw [okWord_toNat] at h1
  cases f <;> simp at h1 <;> omega

/-- `raise` writes the ERR bit and nothing else (60_exceptions.md R212). -/
theorem raise_eq (f : CmdFault) (s : State) :
    raise f s = .next { s with err := s.err ||| f.errBit, rsps := s.rsps ++ [faultWord f] } := rfl

/-- `complete` returns its DATA and changes nothing else. -/
theorem complete_eq (d : Data) (s : State) :
    complete d s = .next { s with rsps := s.rsps ++ [okWord d] } := rfl

/-- All a read command can do (20_memory.md R68, R69). -/
theorem readOperand_cases (v : Option Data) (s : State) :
    (∃ d, v = some d ∧ readOperand v s = .next { s with rsps := s.rsps ++ [okWord d] }) ∨
    (v = none ∧ readOperand v s = .next { s with err := s.err ||| 2, rsps := s.rsps ++ [0xA0000000] }) := by
  cases v with
  | none => exact .inr ⟨rfl, by rw [← faultWord_operand]; rfl⟩
  | some d => exact .inl ⟨d, rfl, rfl⟩

/-! ### The stores -/

/-- A committed bit is its label under POL (00_scope.md R13). -/
theorem bit?_eq_labelAt (s : State) (i : Nat) : s.bit? i = (s.labelAt i).map (fun label => label ^^ s.pol) := by
  simp [State.bit?, State.bits, State.labelAt]

/-- A label holds a value exactly below LEN (10_state.md R20). -/
theorem labelAt_eq_none_iff (s : State) (i : Nat) : s.labelAt i = none ↔ s.len ≤ i := by
  simp [State.labelAt, State.len]

/-- A frame byte holds a value exactly below FCNT (10_state.md R24). -/
theorem frameAt_eq_none_iff (s : State) (i : Nat) : s.frameAt i = none ↔ s.fcnt ≤ i := by
  simp [State.frameAt, State.fcnt]

/-- A committed bit has a value exactly below LEN (00_scope.md R13). -/
theorem bit?_eq_none_iff (s : State) (i : Nat) : s.bit? i = none ↔ s.len ≤ i := by
  simp [State.bit?]

/-- The label CAPT appends is read back at the old LEN. -/
@[simp] theorem labelAt_appendLabel_len (s : State) (b : Bool) : (s.appendLabel b).labelAt s.len = some b := by
  simp [State.labelAt, State.len]

/-- CAPT leaves every other cell alone. -/
theorem labelAt_appendLabel_of_ne (s : State) (b : Bool) {i : Nat} (h : i ≠ s.len) :
    (s.appendLabel b).labelAt i = s.labelAt i := by
  simp only [State.labelAt, State.appendLabel_lbl, State.len] at *
  rcases Nat.lt_or_gt_of_ne h with h | h
  · exact List.getElem?_append_left h
  · rw [List.getElem?_eq_none (by simp; omega), List.getElem?_eq_none (by omega)]

/-! ### The stores stay within their depths -/

theorem reset_wf : Memory.wf State.reset := by decide

theorem appendLabel_wf {s : State} (b : Bool) (h : Memory.wf s) (hn : s.len ≠ s.cfg.ldepth.toNat) :
    Memory.wf (s.appendLabel b) := by
  simp only [Memory.wf, State.appendLabel_len, State.appendLabel_cfg, State.appendLabel_fcnt] at *
  omega

theorem storeFrame_wf {s : State} {bytes : List Byte} (p : Data) (c : Halt) (h : Memory.wf s)
    (hb : bytes.length ≤ s.cfg.fdepth.toNat) : Memory.wf (s.storeFrame bytes p c) :=
  ⟨h.1, hb⟩

theorem clear_wf (s : State) : Memory.wf s.clear := ⟨Nat.zero_le _, Nat.zero_le _⟩

theorem respond_wf {s : State} (rw : Word) (h : Memory.wf s) : Memory.wf (s.respond rw) := h

theorem recordFault_wf {s : State} (f : CmdFault) (h : Memory.wf s) : Memory.wf (s.recordFault f) := h

theorem setPol_wf {s : State} (b : Bool) (h : Memory.wf s) : Memory.wf (s.setPol b) := h

theorem setMaxb_wf {s : State} (n : Half) (h : Memory.wf s) : Memory.wf (s.setMaxb n) := h

theorem setVerdict_wf {s : State} (a : VRes) (r v : Bool) (n : Half) (h : Memory.wf s) :
    Memory.wf (s.setVerdict a r v n) := h

theorem setErr_wf {s : State} (e : BitVec 3) (h : Memory.wf s) : Memory.wf (s.setErr e) := h

theorem setCmds_wf {s : State} (evs : List HostEvent) (h : Memory.wf s) : Memory.wf (s.setCmds evs) := h

end Sys2Proof.Machine
end

