-- ==== Sys2Proof/Laws/Extract.lean ====
section
/-! SUPPORT. What a character is in terms of its ten bits, and everything the loop of EXTRACT can do
(41_extract.md R143 to R149). -/

namespace Sys2Proof.Machine

/-- Data bit k of a character ends up in bit 7-k of the byte (20_memory.md R63; 41_extract.md R149). -/
theorem packBits_getLsbD (d0 d1 d2 d3 d4 d5 d6 d7 : Bool) :
    let b := packBits [d0, d1, d2, d3, d4, d5, d6, d7]
    b.getLsbD 7 = d0 ∧ b.getLsbD 6 = d1 ∧ b.getLsbD 5 = d2 ∧ b.getLsbD 4 = d3 ∧
      b.getLsbD 3 = d4 ∧ b.getLsbD 2 = d5 ∧ b.getLsbD 1 = d6 ∧ b.getLsbD 0 = d7 := by
  revert d0 d1 d2 d3 d4 d5 d6 d7
  decide

/-- Ten bits at `p`, one by one. -/
theorem characterAt?_of_ten {bits : List Bool} {p : Nat} (h : p + 10 ≤ bits.length) :
    characterAt? bits p = some
      { start := bits[p]
        data := packBits [bits[p + 1], bits[p + 2], bits[p + 3], bits[p + 4], bits[p + 5], bits[p + 6],
          bits[p + 7], bits[p + 8]]
        stop := bits[p + 9] } := by
  have e : (bits.drop p).take 10 = [bits[p], bits[p + 1], bits[p + 2], bits[p + 3], bits[p + 4], bits[p + 5],
      bits[p + 6], bits[p + 7], bits[p + 8], bits[p + 9]] := by
    iterate 10 rw [List.drop_eq_getElem_cons (by omega), List.take_succ_cons]
    simp
  simp only [characterAt?, charBits, e]

/-- A character has no value exactly when fewer than ten bits remain (41_extract.md R144, SHORT). -/
theorem characterAt?_eq_none_iff (bits : List Bool) (p : Nat) :
    characterAt? bits p = none ↔ bits.length < p + 10 := by
  constructor
  · intro h
    by_contra hn
    rw [characterAt?_of_ten (by omega)] at h
    cases h
  · intro h
    have hl : ((bits.drop p).take charBits).length ≠ 10 := by simp [charBits]; omega
    unfold characterAt?
    split
    · rename_i e
      rw [e] at hl
      simp at hl
    · rfl

/-- What a character's fields are, bit by bit (41_extract.md R143; 20_memory.md R63). -/
theorem characterAt?_fields {bits : List Bool} {p : Nat} {c : Character} (h : characterAt? bits p = some c) :
    p + 10 ≤ bits.length ∧ bits[p]? = some c.start ∧ bits[p + 9]? = some c.stop ∧
      ∀ k < 8, bits[p + 1 + k]? = some (c.data.getLsbD (7 - k)) := by
  have hp : p + 10 ≤ bits.length := by
    by_contra hn
    rw [(characterAt?_eq_none_iff bits p).2 (by omega)] at h
    cases h
  rw [characterAt?_of_ten hp] at h
  cases h
  refine ⟨hp, by simp, by simp, fun k hk => ?_⟩
  obtain ⟨e7, e6, e5, e4, e3, e2, e1, e0⟩ := packBits_getLsbD bits[p + 1] bits[p + 2] bits[p + 3]
    bits[p + 4] bits[p + 5] bits[p + 6] bits[p + 7] bits[p + 8]
  rw [List.getElem?_eq_getElem (by omega)]
  interval_cases k
  exacts [congrArg some e7.symm, congrArg some e6.symm, congrArg some e5.symm, congrArg some e4.symm,
    congrArg some e3.symm, congrArg some e2.symm, congrArg some e1.symm, congrArg some e0.symm]

/-- Whether the loop stores a byte for the character at `p` (41_extract.md R146). -/
def Accepts (bits : List Bool) (p : Nat) (b : Byte) : Prop :=
  p + 10 ≤ bits.length ∧ bits[p]? = some false ∧ bits[p + 9]? = some true ∧
    ∀ k < 8, bits[p + 1 + k]? = some (b.getLsbD (7 - k))

/-- The condition of each halt cause at the character at `p`, with `room` bytes left under the cap
(41_extract.md R144). -/
def HaltsWith (bits : List Bool) (room p : Nat) : Halt → Prop
  | .none => False
  | .cap => room = 0
  | .short => 0 < room ∧ bits.length < p + 10
  | .start => 0 < room ∧ p + 10 ≤ bits.length ∧ bits[p]? = some true
  | .stop => 0 < room ∧ p + 10 ≤ bits.length ∧ bits[p]? = some false ∧ bits[p + 9]? = some false

/-- Everything the loop can do: it accepts characters at a stride of ten and halts at the first one it
cannot accept (41_extract.md R143 to R145). -/
theorem extractLoop_spec (bits : List Bool) (room p : Nat) :
    let x := extractLoop bits room p
    x.bytes.length ≤ room ∧ x.pos = p + 10 * x.bytes.length ∧
      (∀ j b, x.bytes[j]? = some b → Accepts bits (p + 10 * j) b) ∧
      HaltsWith bits (room - x.bytes.length) x.pos x.cause := by
  induction room generalizing p with
  | zero => simp [extractLoop, HaltsWith]
  | succ room ih =>
    simp only [extractLoop]
    cases hc : characterAt? bits p with
    | none =>
      have := (characterAt?_eq_none_iff bits p).1 hc
      simp [HaltsWith, this]
    | some c =>
      obtain ⟨hp, h0, h9, hd⟩ := characterAt?_fields hc
      obtain ⟨start, data, stop⟩ := c
      cases start with
      | true => simp [HaltsWith, hp, h0]
      | false =>
        cases stop with
        | false => simp [HaltsWith, hp, h0, h9]
        | true =>
          obtain ⟨hl, hpos, hacc, hh⟩ := ih (p + charBits)
          simp only [Bool.false_eq_true, if_false, Bool.not_true, List.length_cons, charBits] at *
          refine ⟨by omega, by omega, ?_, by rwa [Nat.add_sub_add_right]⟩
          intro j b hj
          cases j with
          | zero =>
            cases hj
            exact ⟨hp, h0, h9, hd⟩
          | succ j =>
            have := hacc j b hj
            rwa [show p + 10 + 10 * j = p + 10 * (j + 1) by omega] at this

/-- The final position, if any byte was stored, is within the sequence (41_extract.md R143). -/
theorem extractLoop_pos_le {bits : List Bool} {room p : Nat}
    (h : 0 < (extractLoop bits room p).bytes.length) : (extractLoop bits room p).pos ≤ bits.length := by
  obtain ⟨-, hpos, hacc, -⟩ := extractLoop_spec bits room p
  have := (hacc _ _ (List.getElem?_eq_getElem (Nat.sub_lt h Nat.one_pos))).1
  omega

/-- An extraction never reports NONE (41_extract.md R144). -/
theorem extractLoop_cause_ne_none (bits : List Bool) (room p : Nat) :
    (extractLoop bits room p).cause ≠ .none := by
  intro h
  have := (extractLoop_spec bits room p).2.2.2
  rw [h] at this
  exact this

end Sys2Proof.Machine
end

