-- ==== Sys2Proof/Laws/HostProcedures.lean ====
section
/-! SUPPORT. What the host-side procedures can do. -/

namespace Sys2Proof.Machine

/-- The scan answers positions of the sequence it scans only. -/
theorem locateFrom_lt {p : HostParams} {bits : List Bool} {i run : Nat} {last : Option Nat} {c : Nat}
    (h : c ∈ locateFrom p bits i run last) : c < i + bits.length := by
  induction bits generalizing i run last with
  | nil => cases h
  | cons b bits ih =>
    rw [List.length_cons]
    cases b with
    | true =>
      have := ih h
      omega
    | false =>
      rw [locateFrom] at h
      split at h
      · rcases List.mem_cons.1 h with rfl | h
        · omega
        · have := ih h
          omega
      · have := ih h
        omega

/-- A candidate located over the committed bits is below LEN, so EXTRACT's operand holds it. -/
theorem locate_bits_lt {p : HostParams} {s : State} {c : Nat} (h : c ∈ locate p s.bits) : c < s.len := by
  have := locateFrom_lt h
  rwa [State.bits, List.length_map, Nat.zero_add] at this

end Sys2Proof.Machine
end

