-- ==== Sys2Proof/Laws/PerInstr.lean ====
section
/-! SUPPORT. What holds of every command as syntax, one lemma per constructor of `Instr`. -/

namespace Sys2Proof.Laws

/-- A bool's number is 0 or 1. -/
theorem toNat_lt_two (b : Bool) : b.toNat < 2 := by cases b <;> decide

end Sys2Proof.Laws

namespace Sys2Proof.Laws.WellFormed

/-- Every command is well formed (30_encoding.md R102): its operand has exactly the width of its field. -/
def Statement (i : Instr) : Prop := i.wellFormed = true

theorem nop : Statement .nop := rfl
theorem init : Statement .init := rfl
theorem capt (b : Bool) : Statement (.capt b) := decide_eq_true (toNat_lt_two b)
theorem setpol (b : Bool) : Statement (.setpol b) := decide_eq_true (toNat_lt_two b)
theorem setmaxb (h : Half) : Statement (.setmaxb h) := decide_eq_true h.isLt
theorem extract (idx : Data) : Statement (.extract idx) := decide_eq_true idx.isLt
theorem validate : Statement .validate := rfl
theorem rdbit (idx : Data) : Statement (.rdbit idx) := decide_eq_true idx.isLt
theorem rdframe (h : Half) : Statement (.rdframe h) := decide_eq_true h.isLt
theorem rdbody (h : Half) : Statement (.rdbody h) := decide_eq_true h.isLt
theorem rdreg (r : BitVec 4) : Statement (.rdreg r) := decide_eq_true r.isLt
theorem clrerr (m : BitVec 3) : Statement (.clrerr m) := decide_eq_true m.isLt

end Sys2Proof.Laws.WellFormed

namespace Sys2Proof.Laws.WordFields

/-- A command word holds the opcode of its row in OP, 0 in RSV and the operand in ARG (30_encoding.md R91,
R96). -/
def Statement (i : Instr) : Prop :=
  opField (encode i) = i.mnemonic.opcode ∧ rsvField (encode i) = 0 ∧ argField (encode i) = i.arg

/-- The fields of any command's word. -/
theorem of_encode (i : Instr) : Statement i :=
  ⟨Laws.opField_encode i, Laws.rsvField_encode i, Laws.argField_encode i⟩

theorem nop : Statement .nop := of_encode _
theorem init : Statement .init := of_encode _
theorem capt (b : Bool) : Statement (.capt b) := of_encode _
theorem setpol (b : Bool) : Statement (.setpol b) := of_encode _
theorem setmaxb (h : Half) : Statement (.setmaxb h) := of_encode _
theorem extract (idx : Data) : Statement (.extract idx) := of_encode _
theorem validate : Statement .validate := of_encode _
theorem rdbit (idx : Data) : Statement (.rdbit idx) := of_encode _
theorem rdframe (h : Half) : Statement (.rdframe h) := of_encode _
theorem rdbody (h : Half) : Statement (.rdbody h) := of_encode _
theorem rdreg (r : BitVec 4) : Statement (.rdreg r) := of_encode _
theorem clrerr (m : BitVec 3) : Statement (.clrerr m) := of_encode _

end Sys2Proof.Laws.WordFields
end

