-- ==== Sys2Proof/Laws/Validate.lean ====
section
/-! SUPPORT. The checksum over a sequence in parts, the body and trailer of a frame, and everything the
validator's judgement can be (42_validate.md R162 to R167). -/

namespace Sys2Proof.Machine

@[simp] theorem crc16_nil (initial : Half) : crc16 initial [] = initial := rfl

@[simp] theorem crc16_cons (initial : Half) (b : Byte) (m : List Byte) :
    crc16 initial (b :: m) = crc16 (crcByte initial b) m := rfl

/-- The checksum of a sequence in two parts. -/
theorem crc16_append (initial : Half) (m n : List Byte) :
    crc16 initial (m ++ n) = crc16 (crc16 initial m) n := List.foldl_append

/-- The body of a sequence that ends in a two-byte trailer. -/
@[simp] theorem bodyOf_append (body : List Byte) (hi lo : Byte) : bodyOf (body ++ [hi, lo]) = body := by
  simp [bodyOf, trailerBytes]

/-- The trailer of a sequence, high byte first (20_memory.md R64). -/
@[simp] theorem trailerOf?_append (body : List Byte) (hi lo : Byte) :
    trailerOf? (body ++ [hi, lo]) = some (hi ++ lo) := by
  simp [trailerOf?, trailerBytes]

/-- Every sequence of at least two bytes is a body and a trailer. -/
theorem exists_body_trailer {m : List Byte} (h : 2 ≤ m.length) : ∃ body hi lo, m = body ++ [hi, lo] := by
  have hd : m.drop (m.length - 2) = [m[m.length - 2], m[m.length - 1]] := by
    rw [List.drop_eq_getElem_cons (by omega), List.drop_eq_getElem_cons (by omega),
      List.drop_eq_nil_of_le (by omega)]
    simp only [show m.length - 2 + 1 = m.length - 1 by omega]
  exact ⟨m.take (m.length - 2), _, _, by rw [← hd, List.take_append_drop]⟩

/-- A match, written on the frame's body and trailer (42_validate.md R162, R165). -/
theorem matchesTrailer_candidate (r v : Bool) (body : List Byte) (hi lo : Byte) :
    matchesTrailer (candidate r (body ++ [hi, lo])) v = true ↔
      candidateByte r hi ++ candidateByte r lo = crc16 (crcInit v) (body.map (candidateByte r)) := by
  simp only [matchesTrailer, candidate, List.map_append, List.map_cons, List.map_nil, trailerOf?_append,
    bodyOf_append, beq_iff_eq, Option.some.injEq]

/-- All the validator's judgement can be (42_validate.md R166, R167). -/
theorem judge_cases (frame : List Byte) :
    (frame.length < 3 ∧ judge frame = { vres := .tooShort, vrev := false, vinit := false, blen := 0 }) ∨
    (3 ≤ frame.length ∧ ∃ r v, firstMatch? frame = some (r, v) ∧
      judge frame = { vres := .ok, vrev := r, vinit := v, blen := BitVec.ofNat 16 (frame.length - 2) }) ∨
    (3 ≤ frame.length ∧ firstMatch? frame = none ∧
      judge frame = { vres := .mismatch, vrev := false, vinit := false, blen := 0 }) := by
  unfold judge
  by_cases h : frame.length < minFrameBytes
  · exact .inl ⟨h, if_pos h⟩
  · have h3 : 3 ≤ frame.length := Nat.le_of_not_lt h
    rw [if_neg h]
    cases hm : firstMatch? frame with
    | none => exact .inr (.inr ⟨h3, rfl, rfl⟩)
    | some rv => exact .inr (.inl ⟨h3, rv.1, rv.2, rfl, rfl⟩)

/-- The first of the four trials that matches (42_validate.md R167). -/
theorem firstMatch?_eq (frame : List Byte) :
    firstMatch? frame =
      if matchesTrailer (candidate false frame) false then some (false, false)
      else if matchesTrailer (candidate false frame) true then some (false, true)
      else if matchesTrailer (candidate true frame) false then some (true, false)
      else if matchesTrailer (candidate true frame) true then some (true, true)
      else none := by
  simp only [firstMatch?, trials, List.find?]
  cases matchesTrailer (candidate false frame) false <;>
  cases matchesTrailer (candidate false frame) true <;>
  cases matchesTrailer (candidate true frame) false <;>
  cases matchesTrailer (candidate true frame) true <;> rfl

end Sys2Proof.Machine
end

