-- ==== Sys2Proof/Laws/Step.lean ====
section
/-! SUPPORT. A step in terms of the host's next event, and what each command with a data-dependent outcome
can do. -/

namespace Sys2Proof.Machine

/-- With nothing on the port LSFX is idle. -/
theorem step_of_nil {s : State} (h : s.cmds = []) : step s = idle s := by
  unfold step
  rw [h]

/-- With an event on the port, the event is taken off and acted on. -/
theorem step_of_cons {s : State} {ev : HostEvent} {rest : List HostEvent} (h : s.cmds = ev :: rest) :
    step s = acceptEvent ev (s.setCmds rest) := by
  unfold step
  rw [h]

/-- All an accepted word can do: run its command, or be refused as illegal (30_encoding.md R97). -/
theorem acceptWord_cases (cw : Word) (s : State) :
    (∃ i, decode cw = .command i ∧ acceptWord cw s = exec i s) ∨
    (∃ why, decode cw = .illegal why ∧ acceptWord cw s = raise .illegal s) := by
  unfold acceptWord
  cases h : decode cw with
  | command i => exact .inl ⟨i, rfl, rfl⟩
  | illegal why => exact .inr ⟨why, rfl, rfl⟩

/-! ### The arms of `exec` -/

theorem exec_nop (s : State) : exec .nop s = execNop s := rfl
theorem exec_init (s : State) : exec .init s = execInit s := rfl
theorem exec_capt (b : Bool) (s : State) : exec (.capt b) s = execCapt b s := rfl
theorem exec_setpol (b : Bool) (s : State) : exec (.setpol b) s = execSetpol b s := rfl
theorem exec_setmaxb (h : Half) (s : State) : exec (.setmaxb h) s = execSetmaxb h s := rfl
theorem exec_extract (idx : Data) (s : State) : exec (.extract idx) s = execExtract idx s := rfl
theorem exec_validate (s : State) : exec .validate s = execValidate s := rfl
theorem exec_rdbit (idx : Data) (s : State) : exec (.rdbit idx) s = execRdbit idx s := rfl
theorem exec_rdframe (h : Half) (s : State) : exec (.rdframe h) s = execRdframe h s := rfl
theorem exec_rdbody (h : Half) (s : State) : exec (.rdbody h) s = execRdbody h s := rfl
theorem exec_rdreg (r : BitVec 4) (s : State) : exec (.rdreg r) s = execRdreg r s := rfl
theorem exec_clrerr (m : BitVec 3) (s : State) : exec (.clrerr m) s = execClrerr m s := rfl

/-! ### What each command can do -/

/-- All CAPT can do (40_capture.md R121). -/
theorem execCapt_cases (b : Bool) (s : State) :
    (s.len = s.cfg.ldepth.toNat ∧ execCapt b s = raise .ovf s) ∨
    (s.len ≠ s.cfg.ldepth.toNat ∧ execCapt b s = complete (s.appendLabel b).lenReg (s.appendLabel b)) := by
  unfold execCapt
  by_cases h : s.len = s.cfg.ldepth.toNat
  · exact .inl ⟨h, if_pos h⟩
  · exact .inr ⟨h, if_neg h⟩

/-- All SETMAXB can do (41_extract.md R141). -/
theorem execSetmaxb_cases (h : Half) (s : State) :
    (s.cfg.fdepth < h ∧ execSetmaxb h s = raise .operand s) ∨
    (h ≤ s.cfg.fdepth ∧ execSetmaxb h s = complete (h.setWidth 24) (s.setMaxb h)) := by
  unfold execSetmaxb
  by_cases hh : s.cfg.fdepth < h
  · exact .inl ⟨hh, if_pos hh⟩
  · exact .inr ⟨BitVec.not_lt.1 hh, if_neg hh⟩

/-- The state EXTRACT leaves, but for the response. -/
def extracted (idx : Data) (s : State) : State :=
  let x := extractLoop s.bits s.maxb.toNat idx.toNat
  (s.storeFrame x.bytes (BitVec.ofNat 24 x.pos) x.cause).setVerdict .none false false 0

/-- All EXTRACT can do (41_extract.md R143). -/
theorem execExtract_eq (idx : Data) (s : State) :
    execExtract idx s = complete (extractData (extracted idx s)) (extracted idx s) := rfl

/-- The state VALIDATE leaves, but for the response. -/
def validated (s : State) : State :=
  s.setVerdict (judge s.fb).vres (judge s.fb).vrev (judge s.fb).vinit (judge s.fb).blen

/-- All VALIDATE can do (42_validate.md R166). -/
theorem execValidate_eq (s : State) : execValidate s = complete (validateData (validated s)) (validated s) := rfl

end Sys2Proof.Machine
end

