-- ==== Sys2Proof/Tests/Slice0.lean ====
section
/-! SUPPORT. Tests: words written out from 30_encoding.md R91 to R96, commands the syntax refuses, one step
per command on the spec's own examples (95_test_vectors.md), and for every obligation with hypotheses a
state and operands that meet them. -/

namespace Sys2Proof.Machine.Tests

set_option Elab.async false

/-! ### Helpers -/

/-- The bits of a string of 0s and 1s, as the spec's vectors are written. -/
def bitsOf (digits : String) : List Bool := digits.toList.map (fun c => c == '1')

/-- A54 of 95_test_vectors.md: 12 ones, the characters 0x41 0x58 0xE5, 12 ones. -/
def a54 : List Bool := bitsOf "111111111111001000001100101100010111001011111111111111"

/-- The reset state with these labels captured. -/
def captured (labels : List Bool) : State := { State.reset with lbl := labels }

/-- A state after an EXTRACT that stored these bytes and halted for want of labels. -/
def framed (bytes : List Byte) : State :=
  { captured (List.replicate (10 * bytes.length) true) with
    fb := bytes, pos := BitVec.ofNat 24 (10 * bytes.length), halt := .short }

/-- The state of vector V1 after EXTRACT and VALIDATE: the frame 41 58 E5 and its one-byte body. -/
def validBody : State := { framed [0x41, 0x58, 0xE5] with vres := .ok, blen := 1 }

/-- An LSFX of one label cell, which holds a label. -/
def full : State := { captured [true] with cfg := { ldepth := 1, fdepth := 10000 } }

/-- The state with one word on its port. -/
def withWord (w : Word) (s : State) : State := s.presentWord w

/-- The state after one accepted word; `s` itself if the step gave no next state. -/
def after (w : Word) (s : State) : State :=
  match step (withWord w s) with
  | .next t => t
  | _ => s

/-- The response words of one accepted word. -/
def answer (w : Word) (s : State) : List Word := (after w s).rsps

/-- The next state of an outcome, for tests that compute it. -/
def next? (o : Result) : Option State :=
  match o with
  | .next t => some t
  | _ => none

/-- An outcome whose next state is computed to be `t`. -/
theorem eq_next {o : Result} {t : State} (h : next? o = some t) : o = .next t := by
  cases o with
  | next s => cases h; rfl
  | fault _ => cases h
  | refused _ => cases h

/-! ### Well-formedness: R102's brackets, one refused term for each check -/

theorem test_wf_operand_not_allowed : ∀ m ∈ [Mnemonic.nop, .init, .validate],
    ({ mnemonic := m, operand := some 0 } : CommandText).wellFormed = false := by decide

theorem test_wf_operand_missing :
    ∀ m ∈ [Mnemonic.capt, .setpol, .setmaxb, .extract, .rdbit, .rdframe, .rdbody, .rdreg, .clrerr],
    ({ mnemonic := m, operand := none } : CommandText).wellFormed = false := by decide

theorem test_wf_operand_too_large : ∀ p ∈
    [(Mnemonic.capt, 2), (.setpol, 2), (.setmaxb, 65536), (.extract, 16777216), (.rdbit, 16777216),
     (.rdframe, 65536), (.rdbody, 65536), (.rdreg, 16), (.clrerr, 8)],
    ({ mnemonic := p.1, operand := some p.2 } : CommandText).wellFormed = false := by decide

theorem test_wf_operand_largest : ∀ p ∈
    [(Mnemonic.capt, 1), (.setpol, 1), (.setmaxb, 65535), (.extract, 16777215), (.rdbit, 16777215),
     (.rdframe, 65535), (.rdbody, 65535), (.rdreg, 15), (.clrerr, 7)],
    ({ mnemonic := p.1, operand := some p.2 } : CommandText).wellFormed = true := by decide

/-! ### Decoding: OP ++ RSV ++ ARG, field by field from R91, R94 and R96 -/

theorem test_decode_nop : decode 0b0000_0000_000000000000000000000000 = .command .nop := by decide
theorem test_decode_init : decode 0b0001_0000_000000000000000000000000 = .command .init := by decide
theorem test_decode_capt : decode 0b0010_0000_00000000000000000000000_1 = .command (.capt true) := by decide
theorem test_decode_setpol : decode 0b0011_0000_00000000000000000000000_0 = .command (.setpol false) := by
  decide
theorem test_decode_setmaxb :
    decode 0b0100_0000_00000000_1000000000000001 = .command (.setmaxb 0x8001) := by decide
theorem test_decode_extract :
    decode 0b0101_0000_100000000000000000000110 = .command (.extract 0x800006) := by decide +kernel
theorem test_decode_validate : decode 0b0110_0000_000000000000000000000000 = .command .validate := by decide +kernel
theorem test_decode_rdbit :
    decode 0b0111_0000_111111111111111111111110 = .command (.rdbit 0xFFFFFE) := by decide +kernel
theorem test_decode_rdframe :
    decode 0b1000_0000_00000000_0000000100000010 = .command (.rdframe 0x0102) := by decide +kernel
theorem test_decode_rdbody :
    decode 0b1001_0000_00000000_0100000000000011 = .command (.rdbody 0x4003) := by decide +kernel
theorem test_decode_rdreg : decode 0b1010_0000_00000000000000000000_1011 = .command (.rdreg 11) := by decide +kernel
theorem test_decode_clrerr : decode 0b1011_0000_000000000000000000000_110 = .command (.clrerr 6) := by decide +kernel

/-- 30_encoding.md R98, R99 and vector V35: the illegal words of each kind. -/
theorem test_decode_illegal :
    [0xC0000000, 0xD0000000, 0xE1234567, 0xF0000000, 0xFFFFFFFF].map decode =
      List.replicate 5 (.illegal .reservedOpcode) ∧
    [0x01000000, 0x2F000000, 0x51000000, 0x7F000000].map decode =
      List.replicate 4 (.illegal .rsvNotZero) ∧
    [0x00000001, 0x10000001, 0x20000002, 0x30000002, 0x40010000, 0x60000001, 0x80010000, 0x90010000,
        0xA0000010, 0xB0000008].map decode = List.replicate 10 (.illegal .reservedArgBit) := by decide +kernel

theorem test_encode : encode (.extract 12) = 0x5000000C ∧ encode (.rdreg 15) = 0xA000000F ∧
    encode (.clrerr 7) = 0xB0000007 ∧ encode (.setmaxb 10001) = 0x40002711 ∧
    encode (.capt true) = 0x20000001 := by decide

theorem test_decodeTableWord : decodeTableWord 32 0x5000000C = some (.extract 12) ∧
    decodeTableWord 32 0xC0000000 = none ∧ decodeTableWord 16 0x0000 = some .nop := by decide

/-- The word placed by `withFetchWord` is the one the next step runs. -/
theorem test_withFetchWord : next? (step (State.reset.withFetchWord 32 0x30000001)) =
    next? (exec (.setpol true) State.reset) := by decide +kernel

/-! ### One step per command -/

theorem test_nop : answer 0x00000000 validBody = [0x00000000] := by decide +kernel

/-- V31: INIT after a run leaves the reset values. -/
theorem test_init : answer 0x10000000 validBody = [0x00000000] ∧ (after 0x10000000 validBody).AtReset := by
  decide +kernel

/-- V8: the first label of an LSFX is label 0, and the new LEN is returned. -/
theorem test_capt : answer 0x20000001 State.reset = [0x00000001] ∧
    (after 0x20000001 State.reset).labelAt 0 = some true := by decide +kernel

/-- V8: a full store refuses the label with OVF. -/
theorem test_capt_full : answer 0x20000000 full = [0xB0000000] ∧ (after 0x20000000 full).lbl = [true] ∧
    (after 0x20000000 full).err = 0b100 := by decide +kernel

/-- V6: SETPOL sets, it does not toggle. -/
theorem test_setpol : answer 0x30000001 (captured [true]) = [0x00000001] ∧
    (after 0x30000001 (captured [true])).bit? 0 = some false ∧
    (after 0x30000001 { captured [true] with pol := true }).pol = true := by decide +kernel

/-- V13: MAXB = FDEPTH is accepted. -/
theorem test_setmaxb : answer 0x40002710 State.reset = [0x00002710] := by decide +kernel

/-- V13: a cap above FDEPTH is refused and not clamped. -/
theorem test_setmaxb_too_large : answer 0x40002711 State.reset = [0xA0000000] ∧
    (after 0x40002711 { State.reset with maxb := 5 }).maxb = 5 := by decide +kernel

/-- V1: the frame of A54. -/
theorem test_extract : answer 0x5000000C (captured a54) = [0x00030003] ∧
    (after 0x5000000C (captured a54)).fb = [0x41, 0x58, 0xE5] ∧
    (after 0x5000000C (captured a54)).pos = 42 := by decide +kernel

/-- V17: the data bits are packed most significant first, and exactly ten labels suffice. -/
theorem test_extract_msb_first : (after 0x50000000 (captured (bitsOf "0101001011"))).fb = [0xA5] ∧
    answer 0x50000000 (captured (bitsOf "0101001011")) = [0x00020001] ∧
    answer 0x50000000 (captured (bitsOf "010100101")) = [0x00020000] := by decide +kernel

/-- V1: the body is "A", as parsed, with initial value 0. -/
theorem test_validate : answer 0x60000000 (framed [0x41, 0x58, 0xE5]) = [0x00010001] := by decide +kernel

/-- V20: the other three combinations, by the frames of HI01, HI10 and HI11. -/
theorem test_validate_combinations :
    answer 0x60000000 (framed [0x48, 0x69, 0x64, 0xE5]) = [0x00090002] ∧
    answer 0x60000000 (framed [0x12, 0x96, 0x9E, 0x57]) = [0x00050002] ∧
    answer 0x60000000 (framed [0x12, 0x96, 0x26, 0xA7]) = [0x000D0002] := by decide +kernel

/-- V4: the last committed bit, and the first that has no value. -/
theorem test_rdbit : answer 0x70000035 (captured a54) = [0x00000001] ∧
    answer 0x70000036 (captured a54) = [0xA0000000] := by decide +kernel

/-- V3: POL = 1 complements what RDBIT returns. -/
theorem test_rdbit_pol : answer 0x70000000 { captured [true] with pol := true } = [0x00000000] := by
  decide +kernel

/-- V1: frame bytes are returned as extracted, trailer included. -/
theorem test_rdframe : answer 0x80000002 validBody = [0x000000E5] ∧
    answer 0x80000003 validBody = [0xA0000000] := by decide +kernel

/-- V1: the body stops before the trailer. -/
theorem test_rdbody : answer 0x90000000 validBody = [0x00000041] ∧
    answer 0x90000001 validBody = [0xA0000000] := by decide +kernel

/-- V20: after a bit-reversed match the body is returned bit-reversed. -/
theorem test_rdbody_reversed :
    answer 0x90000000 { framed [0x12, 0x96, 0x9E, 0x57] with vres := .ok, vrev := true, blen := 2 } =
      [0x00000048] := by decide +kernel

/-- V32: the identification word, VSTAT = 0xD, and the registers' places. -/
theorem test_rdreg : answer 0xA0000000 State.reset = [0x004C5301] ∧
    answer 0xA0000007 { validBody with vrev := true, vinit := true } = [0x0000000D] ∧
    answer 0xA000000A State.reset = [0x00100000] ∧ answer 0xA000000B State.reset = [0x00002710] := by
  decide +kernel

/-- V33: register 12 does not exist. -/
theorem test_rdreg_reserved : answer 0xA000000C State.reset = [0xA0000000] := by decide +kernel

/-- V34: only the bits of the mask are cleared, and the new ERR is returned. -/
theorem test_clrerr : answer 0xB0000001 { State.reset with err := 0b011 } = [0x00000002] ∧
    answer 0xB0000000 { State.reset with err := 0b011 } = [0x00000003] := by decide +kernel

/-- V35: an illegal word changes nothing but ERR bit 0. -/
theorem test_illegal : after 0xC0000000 validBody =
    { validBody with err := 0b001, rsps := [0x90000000] } := by decide +kernel

/-! ### A state and operands for every obligation with hypotheses -/

theorem test_witness_inv : State.reset.Inv ∧ (captured a54).Inv ∧ (framed [0x41, 0x58, 0xE5]).Inv ∧
    validBody.Inv ∧ full.Inv :=
  ⟨by decide +kernel, by decide +kernel, by decide +kernel, by decide +kernel, by decide +kernel⟩

theorem test_witness_AcceptedWordIsTheWordOfItsCommand :
    decode 0x5000000C = .command (.extract 12) := by decide

/-- Both sides of the row test, at a row's last word and at the word after it. -/
theorem test_witness_OpcodeMapSelectsTheRow :
    decode 0x2FFFFFFF ≠ .command (.capt true) ∧ (0x20000001#32 &&& 0xFFFFFFFE = 0x20000000) ∧
    (0x20000002#32 &&& 0xFFFFFFFE ≠ 0x20000000) := by decide

/-- Each check of R97 at the edge of its range. -/
theorem test_witness_DecoderChecksInOrder :
    12 ≤ opNumber 0xC0000000 ∧
    (opNumber 0xBF000000 < 12 ∧ rsvNumber 0xBF000000 ≠ 0) ∧
    (opNumber 0xB0000008 < 12 ∧ rsvNumber 0xB0000008 = 0 ∧
      2 ^ operandWidth (opNumber 0xB0000008) ≤ argNumber 0xB0000008) ∧
    ¬ IllegalWord 0xB0000007 ∧ ¬ IllegalWord 0x70FFFFFF := by decide +kernel

theorem test_witness_WrittenCommandStandsForOneWord :
    ({ mnemonic := .rdreg, operand := some 15 } : CommandText).wellFormed = true ∧
    ({ mnemonic := .rdreg, operand := some 16 } : CommandText).wellFormed = false := by decide

theorem test_witness_StepRunsTheDecodedCommand :
    (withWord 0x5000000C State.reset).cmds = .command 0x5000000C :: [] ∧
    decode 0x5000000C = .command (.extract 12) := by decide

/-- One word of each illegal kind. -/
theorem test_witness_IllegalWordIsRefused :
    (withWord 0xC0000000 validBody).cmds = .command 0xC0000000 :: [] ∧
    IllegalWord 0xC0000000 ∧ IllegalWord 0x01000000 ∧ IllegalWord 0x20000002 := by decide +kernel

theorem test_witness_IdleKeepsAllState : validBody.cmds = [] := by decide

/-- A reset during EXTRACT with a word waiting, for the two obligations on hardware reset. -/
theorem test_witness_hardReset :
    (validBody.setCmds [.hardReset (some 0x50000000) [0x20000001]]).cmds =
      [.hardReset (some 0x50000000) [0x20000001]] ∧ ¬ validBody.AtReset := by decide +kernel

theorem test_witness_EveryAcceptedWordGetsOneResponse :
    (withWord 0x60000000 validBody).cmds = .command 0x60000000 :: [] := by decide

/-- The last register that exists and the first that does not. -/
theorem test_witness_RdregReadsTheRegister : validBody.Inv ∧ (11#4).toNat < 12 ∧ 12 ≤ (12#4).toNat := by
  decide +kernel

/-- A full store, a store with room, and a command that runs from the full store. -/
theorem test_witness_CaptAppendsOneLabel :
    (full.Inv ∧ full.len = full.cfg.ldepth.toNat) ∧
    (State.reset.Inv ∧ State.reset.len ≠ State.reset.cfg.ldepth.toNat) ∧
    (.capt true ≠ Instr.init ∧
      exec (.capt true) full = .next { full with err := 0b100, rsps := [0xB0000000] }) :=
  ⟨by decide +kernel, by decide +kernel, by decide, eq_next (by decide +kernel)⟩

theorem test_witness_FullLabelStoreStaysFull :
    let s := withWord 0x20000000 full
    s.len = s.cfg.ldepth.toNat ∧ step s = .next (after 0x20000000 full) ∧
    s.cmds = .command (encode (.capt false)) :: [] :=
  ⟨by decide +kernel, eq_next (by decide +kernel), by decide +kernel⟩

theorem test_witness_FullLabelStoreStaysFull_noReset :
    (∀ running presented rest, (withWord 0x20000000 full).cmds ≠ .hardReset running presented :: rest) ∧
    (∀ rest, (withWord 0x20000000 full).cmds ≠ .command 0x10000000 :: rest) := by
  simp [withWord, State.presentWord, State.setCmds]

/-- Label LEN-1 is read, label LEN is not. -/
theorem test_witness_RdbitReadsTheCommittedBit :
    (captured a54).labelAt (53#24).toNat = some true ∧ (53#24).toNat < (captured a54).len ∧
    (captured a54).len ≤ (54#24).toNat := by decide +kernel

theorem test_witness_StoredLabelsNeverChange :
    step (withWord 0x20000001 State.reset) = .next (after 0x20000001 State.reset) :=
  eq_next (by decide +kernel)

theorem test_witness_StoredLabelsNeverChange_noReset :
    (∀ running presented rest, (withWord 0x20000001 State.reset).cmds ≠ .hardReset running presented :: rest) ∧
    (∀ rest, (withWord 0x20000001 State.reset).cmds ≠ .command 0x10000000 :: rest) := by
  simp [withWord, State.presentWord, State.setCmds]

/-- FDEPTH and FDEPTH + 1. -/
theorem test_witness_SetmaxbWritesOrRefuses :
    State.reset.cfg.fdepth.toNat < (10001#16).toNat ∧ (10000#16).toNat ≤ State.reset.cfg.fdepth.toNat := by
  decide

/-- V9 and V10: each of the four causes occurs from a state of the invariant. -/
theorem test_witness_ExtractAcceptsCharactersAndHalts :
    (captured a54).Inv ∧ (after 0x5000000C { captured a54 with maxb := 1 }).halt = .cap ∧
    (after 0x5000002D (captured a54)).halt = .short ∧ (after 0x50000000 (captured a54)).halt = .start ∧
    (after 0x5000000D (captured a54)).halt = .stop := by decide +kernel

/-- Two states that differ in a label below idx, a smaller cap, and more labels. -/
theorem test_witness_ExtractDependsOnItsInputsOnly :
    let s := captured a54
    let s' := captured (false :: a54.drop 1)
    (s'.maxb = s.maxb ∧ s'.len = s.len ∧ s'.pol = s.pol ∧ s'.lbl.drop 12 = s.lbl.drop 12 ∧ s ≠ s') ∧
    (2#16).toNat ≤ s.maxb.toNat ∧
    (∃ t, exec (.extract 12) s = .next t ∧ t.halt ≠ .short) ∧
    (∃ t, exec (.extract 12) s' = .next t) ∧ (∃ t, exec (.extract 12) { s with maxb := 2 } = .next t) ∧
    (∃ t, exec (.extract 12) { s with lbl := s.lbl ++ [false] } = .next t) := by
  refine ⟨by decide +kernel, by decide, ⟨_, rfl, by decide +kernel⟩, ⟨_, rfl⟩, ⟨_, rfl⟩, ⟨_, rfl⟩⟩

/-- Byte FCNT-1 is read, byte FCNT is not. -/
theorem test_witness_RdframeReadsTheFrameByte :
    validBody.frameAt (2#16).toNat = some 0xE5 ∧ (2#16).toNat < validBody.fcnt ∧
    validBody.fcnt ≤ (3#16).toNat := by decide +kernel

/-- Two bytes; a match in the first and in the last trial; three bytes that do not match. -/
theorem test_witness_ValidateReportsTheFirstMatch :
    ((framed [0x00, 0x00]).Inv ∧ (framed [0x00, 0x00]).fcnt < 3) ∧
    ((framed [0x00, 0x00, 0x00]).Inv ∧ (framed [0x00, 0x00, 0x00]).fb = [0x00] ++ [0x00, 0x00] ∧
      crc16 0x0000 [0x00] = 0x00#8 ++ 0x00#8) ∧
    ((framed [0x12, 0x96, 0x26, 0xA7]).Inv ∧
      judge [0x12, 0x96, 0x26, 0xA7] = { vres := .ok, vrev := true, vinit := true, blen := 2 }) ∧
    ((framed [0x41, 0x58, 0xE4]).Inv ∧ firstMatch? [0x41, 0x58, 0xE4] = none) :=
  ⟨by decide +kernel, by decide +kernel, by decide +kernel, by decide +kernel⟩

/-- V22: a frame of palindromes that matches. -/
theorem test_witness_PalindromesMatchAsParsed :
    (∀ b ∈ (framed [0x00, 0x00, 0x00]).fb, rev8 b = b) ∧
    (after 0x60000000 (framed [0x00, 0x00, 0x00])).vres = .ok := by decide +kernel

/-- V29: bit 0 and bit 7 of the one body byte. -/
theorem test_witness_OneCorruptedBodyBitBreaksTheMatch :
    let s := framed [0x41, 0x58, 0xE5]
    0 < 8 ∧ 7 < 8 ∧ s.fb = [] ++ 0x41 :: ([] ++ [0x58, 0xE5]) ∧
    exec .validate s = .next { validBody with rsps := [0x00010001] } ∧ validBody.vres = .ok ∧
    validBody.vrev = false ∧ validBody.vinit = false :=
  ⟨by decide, by decide, by decide, eq_next (by decide +kernel), by decide, by decide, by decide⟩

/-- No verdict; index BLEN; index BLEN-1. -/
theorem test_witness_RdbodyReadsTheBodyByte :
    (State.reset.Inv ∧ State.reset.vres ≠ .ok) ∧
    (validBody.Inv ∧ validBody.blen.toNat ≤ (1#16).toNat) ∧
    (validBody.vres = .ok ∧ (0#16).toNat < validBody.blen.toNat) :=
  ⟨by decide +kernel, by decide +kernel, by decide +kernel⟩

theorem test_witness_ExtractInvalidatesTheBody :
    (framed [0x41, 0x58, 0xE5]).vres ≠ .ok ∧ .capt true ≠ Instr.validate ∧
    exec (.capt true) State.reset = .next (after 0x20000001 State.reset) :=
  ⟨by decide, by decide, eq_next (by decide +kernel)⟩

/-- Each line of R211's table, at the edge of its condition, and a word that raises none. -/
theorem test_witness_FaultsAreRaisedWhereListed :
    answer 0xF0000000 validBody = [0x90000000] ∧
    [0x40002711, 0x7000001E, 0x80000003, 0x90000001, 0xA000000C].map (fun w => answer w validBody) =
      List.replicate 5 [0xA0000000] ∧
    [0x40002710, 0x7000001D, 0x80000002, 0x90000000, 0xA000000B, 0x20000000].map
      (fun w => answer w validBody) =
      [[0x00002710], [0x00000001], [0x000000E5], [0x00000041], [0x00002710], [0x0000001F]] ∧
    answer 0x20000000 full = [0xB0000000] := by decide +kernel

/-- A refused word of each FCODE. -/
theorem test_witness_FaultWritesOneErrBitOnly :
    (step (withWord 0xC0000000 validBody) = .next (after 0xC0000000 validBody) ∧
      answer 0xC0000000 validBody = validBody.rsps ++ [BitVec.ofNat 32 (2 ^ 31 + 1 * 2 ^ 28)]) ∧
    (step (withWord 0x80000003 validBody) = .next (after 0x80000003 validBody) ∧
      answer 0x80000003 validBody = validBody.rsps ++ [BitVec.ofNat 32 (2 ^ 31 + 2 * 2 ^ 28)]) ∧
    (step (withWord 0x20000000 full) = .next (after 0x20000000 full) ∧
      answer 0x20000000 full = full.rsps ++ [BitVec.ofNat 32 (2 ^ 31 + 3 * 2 ^ 28)]) :=
  ⟨⟨eq_next (by decide +kernel), by decide +kernel⟩, ⟨eq_next (by decide +kernel), by decide +kernel⟩,
    ⟨eq_next (by decide +kernel), by decide +kernel⟩⟩

theorem test_witness_RefusedWordActsAsNopButForErr :
    step (withWord 0x80000003 validBody) = .next (after 0x80000003 validBody) ∧
    answer 0x80000003 validBody = validBody.rsps ++ [BitVec.ofNat 32 (2 ^ 31 + 2 * 2 ^ 28)] ∧
    step { validBody with cmds := .command 0x00000000 :: [] } = .next (after 0x00000000 validBody) :=
  ⟨eq_next (by decide +kernel), by decide +kernel, eq_next (by decide +kernel)⟩

theorem test_witness_ErrNeverGates :
    Instr.extract 0 ≠ .rdreg 9 ∧ Instr.extract 0 ≠ .clrerr 0 := by decide

theorem test_witness_RegistersAreWrittenByTheirOwners :
    exec (.setpol true) validBody = .next (after 0x30000001 validBody) := eq_next (by decide +kernel)

/-- Each of the four read commands completes somewhere. -/
theorem test_witness_ReadsHaveNoSideEffect :
    (exec (.rdbit 0) validBody = .next { validBody with rsps := [0x00000001] }) ∧
    (exec (.rdframe 2) validBody = .next { validBody with rsps := [0x000000E5] }) ∧
    (exec (.rdbody 0) validBody = .next { validBody with rsps := [0x00000041] }) ∧
    (exec (.rdreg 11) validBody = .next { validBody with rsps := [0x00002710] }) :=
  ⟨eq_next (by decide +kernel), eq_next (by decide +kernel), eq_next (by decide +kernel),
    eq_next (by decide +kernel)⟩

theorem test_witness_EveryStepKeepsTheInvariant :
    (withWord 0x60000000 (framed [0x41, 0x58, 0xE5])).Inv ∧
    step (withWord 0x60000000 (framed [0x41, 0x58, 0xE5])) =
      .next { validBody with rsps := [0x00010001] } :=
  ⟨by decide +kernel, eq_next (by decide +kernel)⟩

/-- R228's scan on a run of exactly the threshold, of one less, and on a second run within the distance. -/
theorem test_witness_LocatorFindsRunsAndDeduplicates :
    locate {} (bitsOf "111111110") = [8] ∧ locate {} (bitsOf "11111110") = [] ∧
    locate {} (bitsOf "111111110111111110") = [8] := by decide +kernel

/-- R228: the host scans the stored labels only. With eight ones stored and the closing 0 refused, no
candidate is tried: SETPOL's response is the only one. -/
theorem test_searchPolarity_stored_labels :
    (searchPolarity {} ({ captured (bitsOf "11111111") with cfg := { ldepth := 8, fdepth := 10000 } }, [])
      false).1.rsps = [0x00000000] := by decide +kernel

/-- A state with labels and a validated body, the second clause's premise. -/
theorem test_witness_HostReadsBackTheBitsAndTheBody : validBody.Inv ∧ validBody.vres = .ok :=
  ⟨by decide +kernel, by decide⟩

/-- A54 is the unit of the text "A" with 12 ones before and after; it meets every hypothesis, idx = 12. -/
theorem test_witness_WireFormatRoundTrip :
    (captured a54).Inv ∧ (captured a54).bits = [] ++ (wireUnit 12 12 [0x41] ++ []) ∧ 1 ≤ 12 ∧
    (12#24).toNat = ([] : List Bool).length + 12 ∧ 1 ≤ [0x41#8].length ∧
    [0x41#8].length + 2 ≤ (captured a54).maxb.toNat ∧ [0x41#8][(0#16).toNat]? = some 0x41 := by
  decide +kernel

end Sys2Proof.Machine.Tests
end

section
/-! What one command can end in, and the step in terms of it (00_scope.md R14 to R16; 60_exceptions.md R217). -/

namespace Sys2Proof.Machine

/-! ### A command completes or raises a command fault -/

/-- `r` is an end R14 and R16 of 00_scope.md allow a command from `s`: it completes, having left both sides
of the port to its one response, or it raises a command fault on `s` itself. -/
def CompletesOrRaises (s : State) (r : Result) : Prop :=
  (∃ d t, t.cmds = s.cmds ∧ t.rsps = s.rsps ∧ r = complete d t) ∨ ∃ f, r = raise f s

theorem completesOrRaises_complete {s t : State} (d : Data) (hcmds : t.cmds = s.cmds)
    (hrsps : t.rsps = s.rsps) : CompletesOrRaises s (complete d t) :=
  .inl ⟨d, t, hcmds, hrsps, rfl⟩

theorem completesOrRaises_raise (f : CmdFault) (s : State) : CompletesOrRaises s (raise f s) :=
  .inr ⟨f, rfl⟩

theorem completesOrRaises_readOperand (v : Option Data) (s : State) :
    CompletesOrRaises s (readOperand v s) := by
  cases v with
  | none => exact completesOrRaises_raise .operand s
  | some d => exact completesOrRaises_complete d rfl rfl

/-- Every command, with every operand and from every state, completes or raises. -/
theorem completesOrRaises_exec (i : Instr) (s : State) : CompletesOrRaises s (exec i s) := by
  cases i with
  | nop => exact completesOrRaises_complete _ rfl rfl
  | init => exact completesOrRaises_complete _ (State.clear_cmds s) (State.clear_rsps s)
  | capt b =>
    rw [exec_capt]
    obtain ⟨-, h⟩ | ⟨-, h⟩ := execCapt_cases b s <;> rw [h]
    · exact completesOrRaises_raise .ovf s
    · exact completesOrRaises_complete _ (State.appendLabel_cmds s b) (State.appendLabel_rsps s b)
  | setpol b => exact completesOrRaises_complete _ (State.setPol_cmds s b) (State.setPol_rsps s b)
  | setmaxb h =>
    rw [exec_setmaxb]
    obtain ⟨-, e⟩ | ⟨-, e⟩ := execSetmaxb_cases h s <;> rw [e]
    · exact completesOrRaises_raise .operand s
    · exact completesOrRaises_complete _ (State.setMaxb_cmds s h) (State.setMaxb_rsps s h)
  | extract idx => exact completesOrRaises_complete _ (t := extracted idx s) rfl rfl
  | validate => exact completesOrRaises_complete _ (t := validated s) rfl rfl
  | rdbit idx => exact completesOrRaises_readOperand (bitOperand? s idx) s
  | rdframe h => exact completesOrRaises_readOperand (frameOperand? s h) s
  | rdbody h => exact completesOrRaises_readOperand (bodyOperand? s h) s
  | rdreg r => exact completesOrRaises_readOperand (registerOperand? s r) s
  | clrerr m => exact completesOrRaises_complete _ (State.setErr_cmds s _) (State.setErr_rsps s _)

/-- So does every accepted word: an illegal one raises (30_encoding.md R97). -/
theorem completesOrRaises_acceptWord (w : Word) (s : State) : CompletesOrRaises s (acceptWord w s) := by
  obtain ⟨i, -, h⟩ | ⟨_, -, h⟩ := acceptWord_cases w s <;> rw [h]
  · exact completesOrRaises_exec i s
  · exact completesOrRaises_raise .illegal s

/-- Both ends are a next state: a command fault does not stop LSFX (60_exceptions.md R217). -/
theorem CompletesOrRaises.exists_next {s : State} {r : Result} (h : CompletesOrRaises s r) :
    ∃ t, r = .next t := by
  obtain ⟨d, t, -, -, rfl⟩ | ⟨f, rfl⟩ := h
  · exact ⟨_, complete_eq d t⟩
  · exact ⟨_, raise_eq f s⟩

/-! ### One event of the host -/

theorem acceptWord_of_decode {w : Word} {i : Instr} (h : decode w = .command i) (s : State) :
    acceptWord w s = exec i s := by
  unfold acceptWord
  rw [h]

theorem acceptEvent_exists_next (ev : HostEvent) (s : State) : ∃ t, acceptEvent ev s = .next t := by
  cases ev with
  | command w => exact (completesOrRaises_acceptWord w s).exists_next
  | hardReset running presented => exact ⟨hardResetState running presented s, rfl⟩

/-! ### The obligations -/

/-- Settles O13: an idle step, a hardware reset, a completed command and a command fault are all next
states. -/
theorem everyStateIsSafe : Obligations.EveryStateIsSafe := by
  intro s
  unfold State.Safe
  cases h : s.cmds with
  | nil => exact ⟨s, step_of_nil h⟩
  | cons ev rest =>
    rw [step_of_cons h]
    exact acceptEvent_exists_next ev (s.setCmds rest)

/-- Settles O8: the step takes the word off the port, and an accepted word runs the command it decodes to. -/
theorem stepRunsTheDecodedCommand : Obligations.StepRunsTheDecodedCommand := by
  intro s w rest i hcmds hdecode
  calc step s = acceptEvent (.command w) (s.setCmds rest) := step_of_cons hcmds
    _ = exec i (s.setCmds rest) := acceptWord_of_decode hdecode _

end Sys2Proof.Machine
end

section
/-! What each command may write, said once, and from it: which registers a command leaves alone and the
invariants every step keeps (10_state.md R23, R29, R35, R37, R38, R41). -/

namespace Sys2Proof.Machine

/-! ### What a command may write -/

/-- `MayWrite s i u`: the command `i`, run from `s`, may leave the registers and stores of `u`. Each
constructor but the first two belongs to one command, with the check the command makes before it writes. -/
inductive MayWrite (s : State) : Instr → State → Prop where
  /-- A command that only reads, and NOP (20_memory.md R69). -/
  | nothing (i : Instr) : MayWrite s i s
  /-- A command that is refused (60_exceptions.md R212). -/
  | errBit (i : Instr) (f : CmdFault) : MayWrite s i (s.recordFault f)
  | init : MayWrite s .init s.clear
  | capt (b : Bool) (hroom : s.len ≠ s.cfg.ldepth.toNat) : MayWrite s (.capt b) (s.appendLabel b)
  | setpol (b : Bool) : MayWrite s (.setpol b) (s.setPol b)
  | setmaxb (h : Half) (hcap : h ≤ s.cfg.fdepth) : MayWrite s (.setmaxb h) (s.setMaxb h)
  | extract (idx : Data) : MayWrite s (.extract idx) (extracted idx s)
  | validate : MayWrite s .validate (validated s)
  | clrerr (m : BitVec 3) : MayWrite s (.clrerr m) (s.setErr (errClear s.err m))

/-- `r` is a next state that differs from `s` in what `i` may write and in one response. -/
def WritesAndResponds (s : State) (i : Instr) (r : Result) : Prop :=
  ∃ u rw, MayWrite s i u ∧ r = .next (u.respond rw)

theorem writesAndResponds_complete {s u : State} {i : Instr} (d : Data) (h : MayWrite s i u) :
    WritesAndResponds s i (complete d u) :=
  ⟨u, okWord d, h, rfl⟩

theorem writesAndResponds_raise (s : State) (i : Instr) (f : CmdFault) :
    WritesAndResponds s i (raise f s) :=
  ⟨s.recordFault f, faultWord f, .errBit i f, rfl⟩

theorem writesAndResponds_readOperand (s : State) (i : Instr) (v : Option Data) :
    WritesAndResponds s i (readOperand v s) := by
  cases v with
  | none => exact writesAndResponds_raise s i .operand
  | some d => exact writesAndResponds_complete d (.nothing i)

/-- All a command can do to the state: its own writes, and one response. -/
theorem exec_writesAndResponds (i : Instr) (s : State) : WritesAndResponds s i (exec i s) := by
  cases i with
  | nop => exact writesAndResponds_complete _ (.nothing _)
  | init => exact writesAndResponds_complete _ .init
  | capt b =>
    rw [exec_capt]
    obtain ⟨-, e⟩ | ⟨hroom, e⟩ := execCapt_cases b s <;> rw [e]
    · exact writesAndResponds_raise s _ .ovf
    · exact writesAndResponds_complete _ (.capt b hroom)
  | setpol b => exact writesAndResponds_complete _ (.setpol b)
  | setmaxb h =>
    rw [exec_setmaxb]
    obtain ⟨-, e⟩ | ⟨hcap, e⟩ := execSetmaxb_cases h s <;> rw [e]
    · exact writesAndResponds_raise s _ .operand
    · exact writesAndResponds_complete _ (.setmaxb h hcap)
  | extract idx => exact writesAndResponds_complete _ (.extract idx)
  | validate => exact writesAndResponds_complete _ .validate
  | rdbit idx => exact writesAndResponds_readOperand s _ (bitOperand? s idx)
  | rdframe h => exact writesAndResponds_readOperand s _ (frameOperand? s h)
  | rdbody h => exact writesAndResponds_readOperand s _ (bodyOperand? s h)
  | rdreg r => exact writesAndResponds_readOperand s _ (registerOperand? s r)
  | clrerr m => exact writesAndResponds_complete _ (.clrerr m)

/-- The same, of a next state: it is what the command may write, and one response. -/
theorem exec_eq_next {s t : State} {i : Instr} (h : exec i s = .next t) :
    ∃ u rw, MayWrite s i u ∧ t = u.respond rw := by
  obtain ⟨u, rw, hu, e⟩ := exec_writesAndResponds i s
  exact ⟨u, rw, hu, Host.Outcome.next.inj (h.symm.trans e)⟩

/-! ### The registers a command leaves alone -/

section Owners

variable {s u : State} {i : Instr}

theorem MayWrite.cfg_eq (h : MayWrite s i u) : u.cfg = s.cfg := by cases h <;> rfl

theorem MayWrite.cmds_eq (h : MayWrite s i u) : u.cmds = s.cmds := by cases h <;> rfl

theorem MayWrite.lbl_eq (h : MayWrite s i u) (hc : ∀ b, i ≠ .capt b) (hi : i ≠ .init) : u.lbl = s.lbl := by
  cases h with
  | capt b => exact absurd rfl (hc b)
  | init => exact absurd rfl hi
  | _ => rfl

theorem MayWrite.pol_eq (h : MayWrite s i u) (hp : ∀ b, i ≠ .setpol b) (hi : i ≠ .init) : u.pol = s.pol := by
  cases h with
  | setpol b => exact absurd rfl (hp b)
  | init => exact absurd rfl hi
  | _ => rfl

theorem MayWrite.maxb_eq (h : MayWrite s i u) (hm : ∀ n, i ≠ .setmaxb n) (hi : i ≠ .init) :
    u.maxb = s.maxb := by
  cases h with
  | setmaxb n => exact absurd rfl (hm n)
  | init => exact absurd rfl hi
  | _ => rfl

theorem MayWrite.frame_eq (h : MayWrite s i u) (hx : ∀ idx, i ≠ .extract idx) (hi : i ≠ .init) :
    u.fb = s.fb ∧ u.pos = s.pos ∧ u.halt = s.halt := by
  cases h with
  | extract idx => exact absurd rfl (hx idx)
  | init => exact absurd rfl hi
  | _ => exact ⟨rfl, rfl, rfl⟩

theorem MayWrite.verdict_eq (h : MayWrite s i u) (hx : ∀ idx, i ≠ .extract idx) (hv : i ≠ .validate)
    (hi : i ≠ .init) : u.vres = s.vres ∧ u.vrev = s.vrev ∧ u.vinit = s.vinit ∧ u.blen = s.blen := by
  cases h with
  | extract idx => exact absurd rfl (hx idx)
  | validate => exact absurd rfl hv
  | init => exact absurd rfl hi
  | _ => exact ⟨rfl, rfl, rfl, rfl⟩

/-- Recording a fault keeps every ERR bit that is set (60_exceptions.md R212). -/
theorem and_errRecord (err : BitVec 3) (f : CmdFault) : err &&& errRecord err f = err := by
  ext k hk
  simpa [errRecord] using Or.inl

/-- No command but CLRERR and INIT clears an ERR bit (10_state.md R36). -/
theorem MayWrite.err_kept (h : MayWrite s i u) (hc : ∀ m, i ≠ .clrerr m) (hi : i ≠ .init) :
    s.err &&& u.err = s.err := by
  cases h with
  | clrerr m => exact absurd rfl (hc m)
  | init => exact absurd rfl hi
  | errBit _ f => exact and_errRecord s.err f
  | _ => exact BitVec.and_self

end Owners

/-! ### Runs that differ in ERR -/

/-- The two results are next states that differ in ERR alone. -/
def SameButErr (r r' : Result) : Prop := ∃ t e, r = .next t ∧ r' = .next (t.setErr e)

/-- A check on which both runs agree. -/
theorem sameButErr_ite (c : Prop) [Decidable c] {r₁ r₁' r₂ r₂' : Result} (h₁ : SameButErr r₁ r₁')
    (h₂ : SameButErr r₂ r₂') : SameButErr (if c then r₁ else r₂) (if c then r₁' else r₂') := by
  split
  · exact h₁
  · exact h₂

section ErrNeverGates

variable (s : State) (e : BitVec 3)

theorem sameButErr_complete (d : Data) (t : State) :
    SameButErr (complete d t) (complete d (t.setErr e)) :=
  ⟨_, e, rfl, rfl⟩

theorem sameButErr_raise (f : CmdFault) : SameButErr (raise f s) (raise f (s.setErr e)) :=
  ⟨_, errRecord e f, rfl, rfl⟩

theorem sameButErr_readOperand (v : Option Data) :
    SameButErr (readOperand v s) (readOperand v (s.setErr e)) := by
  cases v with
  | none => exact sameButErr_raise s e .operand
  | some d => exact sameButErr_complete e d s

/-- Only register 9 shows ERR (10_state.md R38). -/
theorem registerOperand?_setErr {r : BitVec 4} (hr : r ≠ 9) :
    registerOperand? (s.setErr e) r = registerOperand? s r := by
  unfold registerOperand?
  split
  case h_10 h9 => exact absurd (BitVec.eq_of_toNat_eq h9) hr
  all_goals rfl

/-- No command but RDREG 9 and CLRERR lets ERR into anything it leaves. -/
theorem sameButErr_exec {i : Instr} (hr : i ≠ .rdreg 9) (hc : ∀ m, i ≠ .clrerr m) :
    SameButErr (exec i s) (exec i (s.setErr e)) := by
  cases i with
  | nop => exact sameButErr_complete e _ s
  | init => exact ⟨_, 0, rfl, rfl⟩
  | capt b =>
    exact sameButErr_ite (s.len = s.cfg.ldepth.toNat) (sameButErr_raise s e .ovf)
      (sameButErr_complete e _ (s.appendLabel b))
  | setpol b => exact sameButErr_complete e _ (s.setPol b)
  | setmaxb n =>
    exact sameButErr_ite (s.cfg.fdepth < n) (sameButErr_raise s e .operand)
      (sameButErr_complete e _ (s.setMaxb n))
  | extract idx => exact sameButErr_complete e _ (extracted idx s)
  | validate => exact sameButErr_complete e _ (validated s)
  | rdbit idx => exact sameButErr_readOperand s e (bitOperand? s idx)
  | rdframe n => exact sameButErr_readOperand s e (frameOperand? s n)
  | rdbody n => exact sameButErr_readOperand s e (bodyOperand? s n)
  | rdreg r =>
    have hr9 : r ≠ 9 := fun h => hr (congrArg Instr.rdreg h)
    rw [exec_rdreg, exec_rdreg, execRdreg, execRdreg, registerOperand?_setErr s e hr9]
    exact sameButErr_readOperand s e _
  | clrerr m => exact absurd rfl (hc m)

end ErrNeverGates

/-! ### The reset values -/

/-- What INIT and a hardware reset share leaves the reset values (10_state.md R42). -/
theorem clear_atReset (s : State) : s.clear.AtReset :=
  ⟨s.clear_len, rfl, rfl, s.clear_fcnt, rfl, rfl, rfl, rfl, rfl, rfl, rfl⟩

/-! ### The invariants of the three units -/

section Invariant

variable {s : State}

/-- With no verdict and its other registers 0, the validator meets its invariant (10_state.md R35). -/
theorem ccvInv_of_vres_none (hvres : s.vres = .none) (hvrev : s.vrev = false) (hvinit : s.vinit = false)
    (hblen : s.blen = 0) : s.CcvInv :=
  ⟨fun h => absurd (hvres.symm.trans h) (by decide), fun _ => ⟨hvrev, hvinit, hblen⟩,
    fun h => absurd hvres h⟩

/-- The reset values meet the invariant under any legal parameters (10_state.md R42). -/
theorem clear_inv (h : s.cfg.Valid) : s.clear.Inv := by
  have hempty : s.clear.fcnt = 0 := s.clear_fcnt
  exact ⟨h, Nat.zero_le _, ⟨Nat.zero_le _, le_rfl, fun _ => ⟨hempty, rfl⟩, fun hpos => by omega⟩,
    ccvInv_of_vres_none rfl rfl rfl rfl⟩

theorem appendLabel_inv (b : Bool) (h : s.Inv) (hroom : s.len ≠ s.cfg.ldepth.toNat) :
    (s.appendLabel b).Inv := by
  obtain ⟨hcfg, hbdr, ⟨hfb, hmaxb, hnone, hpos⟩, hccv⟩ := h
  have hlen : (s.appendLabel b).len = s.len + 1 := State.appendLabel_len s b
  refine ⟨hcfg, ?_, ⟨hfb, hmaxb, hnone, fun hf => ?_⟩, hccv⟩
  · show (s.appendLabel b).len ≤ s.cfg.ldepth.toNat
    omega
  · obtain ⟨hle, hten⟩ := hpos hf
    exact ⟨show s.pos.toNat ≤ (s.appendLabel b).len by omega, hten⟩

theorem setMaxb_inv {n : Half} (h : s.Inv) (hcap : n ≤ s.cfg.fdepth) : (s.setMaxb n).Inv := by
  obtain ⟨hcfg, hbdr, ⟨hfb, -, hnone, hpos⟩, hccv⟩ := h
  exact ⟨hcfg, hbdr, ⟨hfb, hcap, hnone, hpos⟩, hccv⟩

/-- EXTRACT stores at most MAXB bytes, and if it stores one, the position it reached is within the
committed bits, so the 24-bit POS holds it (10_state.md R29). -/
theorem extracted_ufeInv (idx : Data) (hbdr : s.BdrInv) (hmaxb : s.maxb.toNat ≤ s.cfg.fdepth.toNat) :
    (extracted idx s).UfeInv := by
  obtain ⟨hcap, hpos, -, -⟩ := extractLoop_spec s.bits s.maxb.toNat idx.toNat
  refine ⟨hcap.trans hmaxb, hmaxb, fun h => absurd h (extractLoop_cause_ne_none _ _ _), fun hstored => ?_⟩
  have hle := extractLoop_pos_le hstored
  rw [State.bits_length] at hle
  have hfits := (hle.trans hbdr).trans_lt s.cfg.ldepth.isLt
  have hreg : (extracted idx s).pos.toNat = (extractLoop s.bits s.maxb.toNat idx.toNat).pos :=
    (BitVec.toNat_ofNat _ _).trans (Nat.mod_eq_of_lt hfits)
  rw [hreg]
  exact ⟨hle, hpos ▸ Nat.le_add_left _ _⟩

theorem extracted_inv (idx : Data) (h : s.Inv) : (extracted idx s).Inv := by
  obtain ⟨hcfg, hbdr, ⟨-, hmaxb, -, -⟩, -⟩ := h
  exact ⟨hcfg, hbdr, extracted_ufeInv idx hbdr hmaxb, ccvInv_of_vres_none rfl rfl rfl rfl⟩

theorem judge_of_ok {frame : List Byte} (h : (judge frame).vres = .ok) :
    3 ≤ frame.length ∧ (judge frame).blen = BitVec.ofNat 16 (frame.length - 2) := by
  obtain ⟨-, e⟩ | ⟨hlen, _, _, -, e⟩ | ⟨-, -, e⟩ := judge_cases frame
  · cases (congrArg Verdict.vres e).symm.trans h
  · exact ⟨hlen, congrArg Verdict.blen e⟩
  · cases (congrArg Verdict.vres e).symm.trans h

theorem judge_of_ne_ok {frame : List Byte} (h : (judge frame).vres ≠ .ok) :
    (judge frame).vrev = false ∧ (judge frame).vinit = false ∧ (judge frame).blen = 0 := by
  obtain ⟨-, e⟩ | ⟨-, _, _, -, e⟩ | ⟨-, -, e⟩ := judge_cases frame
  · rw [e]
    exact ⟨rfl, rfl, rfl⟩
  · exact absurd (congrArg Verdict.vres e) h
  · rw [e]
    exact ⟨rfl, rfl, rfl⟩

/-- VALIDATE leaves its judgement of FB; BLEN holds the length of the body because FCNT is a 16-bit number
(10_state.md R29, R35). -/
theorem validated_ccvInv (hfcnt : s.fcnt < 2 ^ 16) : (validated s).CcvInv := by
  refine ⟨fun hok => ?_, judge_of_ne_ok, fun _ => rfl⟩
  obtain ⟨hlen, e⟩ := judge_of_ok hok
  have hblen : (validated s).blen.toNat = s.fcnt - 2 :=
    (congrArg BitVec.toNat e).trans (Nat.mod_eq_of_lt (lt_of_le_of_lt (Nat.sub_le _ _) hfcnt))
  have hfcnt3 : 3 ≤ s.fcnt := hlen
  exact ⟨hlen, hblen, by omega⟩

theorem validated_inv (h : s.Inv) : (validated s).Inv := by
  obtain ⟨hcfg, hbdr, hufe, -⟩ := h
  exact ⟨hcfg, hbdr, hufe, validated_ccvInv (lt_of_le_of_lt hufe.1 s.cfg.fdepth.isLt)⟩

theorem MayWrite.keeps_inv {i : Instr} {u : State} (h : MayWrite s i u) (hs : s.Inv) : u.Inv := by
  cases h with
  | nothing => exact hs
  | errBit => exact hs
  | init => exact clear_inv hs.1
  | capt b hroom => exact appendLabel_inv b hs hroom
  | setpol b => exact hs
  | setmaxb n hcap => exact setMaxb_inv hs hcap
  | extract idx => exact extracted_inv idx hs
  | validate => exact validated_inv hs
  | clrerr m => exact hs

/-- One event of the host: a hardware reset, a refused word or a command (70_reset_and_hazards.md R250;
30_encoding.md R97). -/
theorem acceptEvent_keeps_inv {ev : HostEvent} {t : State} (hs : s.Inv) (h : acceptEvent ev s = .next t) :
    t.Inv := by
  cases ev with
  | hardReset running presented =>
    cases h
    exact clear_inv hs.1
  | command w =>
    obtain ⟨i, -, e⟩ | ⟨_, -, e⟩ := acceptWord_cases w s
    · obtain ⟨u, _, hu, rfl⟩ := exec_eq_next (e.symm.trans h)
      exact hu.keeps_inv hs
    · cases e.symm.trans h
      exact hs

end Invariant

/-! ### The obligations -/

/-- Settles O46: an idle step changes nothing, and every event keeps the invariant. -/
theorem everyStepKeepsTheInvariant : Obligations.EveryStepKeepsTheInvariant := by
  intro s t hs h
  cases hcmds : s.cmds with
  | nil =>
    cases (step_of_nil hcmds).symm.trans h
    exact hs
  | cons ev rest =>
    exact acceptEvent_keeps_inv (s := s.setCmds rest) hs ((step_of_cons hcmds).symm.trans h)

/-- Settles O41: the two commands that return ERR differ in ERR and the response, every other in ERR
alone. -/
theorem errNeverGates : Obligations.ErrNeverGates := by
  intro s i e
  by_cases hr : i = .rdreg 9
  · subst hr
    exact ⟨_, _, rfl, rfl, rfl, fun h => absurd rfl h⟩
  · by_cases hc : ∃ m, i = .clrerr m
    · obtain ⟨m, rfl⟩ := hc
      exact ⟨_, _, rfl, rfl, rfl, fun _ h => absurd rfl (h m)⟩
    · obtain ⟨t, e', ht, hu⟩ := sameButErr_exec s e hr (not_exists.1 hc)
      exact ⟨t, t.setErr e', ht, hu, rfl, fun _ _ => rfl⟩

/-- Settles O43, from what each command may write. -/
theorem registersAreWrittenByTheirOwners : Obligations.RegistersAreWrittenByTheirOwners := by
  intro s t i h
  obtain ⟨u, rw, hu, rfl⟩ := exec_eq_next h
  exact ⟨hu.cfg_eq, hu.cmds_eq, hu.lbl_eq, hu.pol_eq, hu.maxb_eq, hu.frame_eq, hu.verdict_eq, hu.err_kept⟩

/-- Settles O11: a hardware reset and INIT both clear the state, and clearing the reset state changes
nothing. -/
theorem resetAndInitLeaveTheResetValues : Obligations.ResetAndInitLeaveTheResetValues := by
  refine ⟨clear_atReset State.reset, fun s running presented rest hcmds => ?_, fun s => ?_⟩
  · exact ⟨_, step_of_cons hcmds, clear_atReset (s.setCmds rest)⟩
  · exact ⟨_, rfl, clear_atReset s⟩

/-- Settles O45: the reset state is itself cleared, under the default parameters. -/
theorem resetMeetsTheInvariant : Obligations.ResetMeetsTheInvariant :=
  clear_inv (s := State.reset) (by decide)

end Sys2Proof.Machine
end

section
/-! The two stores and the reads of them (20_memory.md R61, R69): the labels stored are never changed, and
a read command leaves what it reads as it is. -/

namespace Sys2Proof.Machine

/-! ### INIT has one word -/

/-- The checks an accepted word has passed (30_encoding.md R97). -/
theorem checks_of_decode {w : Word} {i : Instr} (h : decode w = .command i) :
    ∃ m, Mnemonic.ofOpcode? (opField w) = some m ∧ rsvField w = 0 ∧
      ¬ m.format.reservedBitSet (argField w) ∧ m.withArg (argField w) = i := by
  unfold decode at h
  split at h
  · cases h
  next m hop =>
    split at h
    · cases h
    next hrsv =>
      split at h
      · cases h
      next harg => exact ⟨m, hop, not_not.1 hrsv, harg, Decoded.command.inj h⟩

theorem eq_init_of_withArg_eq_init {m : Mnemonic} {arg : Data} (h : m.withArg arg = .init) :
    m = .init := by
  cases m with
  | init => rfl
  | _ => cases h

/-- Format Z leaves no ARG bit free, so no other word is INIT (30_encoding.md R94, R96). -/
theorem eq_initWord_of_decode {w : Word} (h : decode w = .command .init) : w = 0x10000000 := by
  obtain ⟨m, hop, hrsv, harg, hm⟩ := checks_of_decode h
  obtain rfl := eq_init_of_withArg_eq_init hm
  have hop1 : w.toNat / 2 ^ 28 = 1 := by
    rw [← Laws.opField_toNat, ← Laws.opcode_of_ofOpcode? hop]
    rfl
  have hrsv0 : w.toNat / 2 ^ 24 % 16 = 0 := by
    rw [← Laws.rsvField_toNat, hrsv]
    rfl
  have harg0 : ¬ 1 ≤ w.toNat % 2 ^ 24 := by
    rw [← Laws.argField_toNat]
    exact mt (Laws.reservedBitSet_iff .z _).2 harg
  apply BitVec.eq_of_toNat_eq
  show w.toNat = 0x10000000
  omega

/-! ### The label store only grows -/

/-- The labels of `s` stand in `u` where they stood, and at most one is added behind them
(20_memory.md R61). -/
def LabelsGrow (s u : State) : Prop := s.lbl <+: u.lbl ∧ u.len ≤ s.len + 1

section Growth

variable {s t : State}

theorem labelsGrow_of_lbl_eq (h : t.lbl = s.lbl) : LabelsGrow s t := by
  unfold LabelsGrow State.len
  rw [h]
  exact ⟨List.prefix_rfl, Nat.le_succ _⟩

theorem labelsGrow_appendLabel (s : State) (b : Bool) : LabelsGrow s (s.appendLabel b) :=
  ⟨List.prefix_append _ _, (State.appendLabel_len s b).le⟩

/-- CAPT appends a label, INIT is left out, and every other command leaves the label store alone. -/
theorem MayWrite.labelsGrow {i : Instr} (h : MayWrite s i t) (hi : i ≠ .init) : LabelsGrow s t := by
  by_cases hc : ∃ b, i = .capt b
  · obtain ⟨b, rfl⟩ := hc
    cases h with
    | capt => exact labelsGrow_appendLabel s b
    | _ => exact labelsGrow_of_lbl_eq rfl
  · exact labelsGrow_of_lbl_eq (h.lbl_eq (not_exists.1 hc) hi)

theorem acceptWord_labelsGrow {w : Word} (h : acceptWord w s = .next t) (hw : w ≠ 0x10000000) :
    LabelsGrow s t := by
  obtain ⟨i, hdec, e⟩ | ⟨_, -, e⟩ := acceptWord_cases w s
  · have hi : i ≠ .init := by
      rintro rfl
      exact hw (eq_initWord_of_decode hdec)
    obtain ⟨u, rw, hu, rfl⟩ := exec_eq_next (e.symm.trans h)
    exact hu.labelsGrow hi
  · cases e.symm.trans h
    exact labelsGrow_of_lbl_eq rfl

end Growth

/-! ### A read command answers from what no response changes -/

/-- `i` is the read command that returns what `value` reads, and a response is nothing `value` reads
(20_memory.md R68, R69). -/
def Reads (i : Instr) (value : State → Option Data) : Prop :=
  (∀ s, exec i s = readOperand (value s) s) ∧ ∀ s rw, value (State.respond rw s) = value s

theorem rdbit_reads (idx : Data) : Reads (.rdbit idx) (bitOperand? · idx) :=
  ⟨fun s => exec_rdbit idx s, fun _ _ => rfl⟩

theorem rdframe_reads (h : Half) : Reads (.rdframe h) (frameOperand? · h) :=
  ⟨fun s => exec_rdframe h s, fun _ _ => rfl⟩

theorem rdbody_reads (h : Half) : Reads (.rdbody h) (bodyOperand? · h) :=
  ⟨fun s => exec_rdbody h s, fun _ _ => rfl⟩

theorem rdreg_reads (r : BitVec 4) : Reads (.rdreg r) (registerOperand? · r) :=
  ⟨fun s => exec_rdreg r s, fun _ _ => rfl⟩

section ReadTwice

variable {s t : State} {i : Instr} {value : State → Option Data} {rw : Word}

/-- A read whose response has FAULT = 0 found a value, returned it and did nothing else. -/
theorem Reads.completes (hread : Reads i value) (h : exec i s = .next t) (hrsps : t.rsps = s.rsps ++ [rw])
    (hok : rw.toNat < 2 ^ 24) : ∃ d, value s = some d ∧ rw = okWord d ∧ t = s.respond rw := by
  obtain ⟨hexec, -⟩ := hread
  have hnext : readOperand (value s) s = .next t := (hexec s).symm.trans h
  obtain ⟨d, hv, e⟩ | ⟨-, e⟩ := readOperand_cases (value s) s <;> cases hnext.symm.trans e
  · obtain rfl : okWord d = rw := by simpa using hrsps
    exact ⟨d, hv, rfl, rfl⟩
  · obtain rfl : 0xA0000000 = rw := by simpa using hrsps
    exact absurd hok (by decide)

/-- Such a read, repeated, finds the same value. -/
theorem Reads.repeats (hread : Reads i value) (h : exec i s = .next t) (hrsps : t.rsps = s.rsps ++ [rw])
    (hok : rw.toNat < 2 ^ 24) :
    t = { s with rsps := t.rsps } ∧ exec i t = .next { t with rsps := t.rsps ++ [rw] } := by
  obtain ⟨d, hv, rfl, rfl⟩ := hread.completes h hrsps hok
  obtain ⟨hexec, hvalue⟩ := hread
  refine ⟨rfl, ?_⟩
  rw [hexec, hvalue, hv]
  rfl

end ReadTwice

/-! ### The obligations -/

/-- Settles O24: an idle step keeps the labels, and an accepted word other than INIT's appends at most
one. -/
theorem storedLabelsNeverChange : Obligations.StoredLabelsNeverChange := by
  intro s t h hreset hinit
  show LabelsGrow s t
  cases hcmds : s.cmds with
  | nil =>
    cases (step_of_nil hcmds).symm.trans h
    exact labelsGrow_of_lbl_eq rfl
  | cons ev rest =>
    have hev : acceptEvent ev (s.setCmds rest) = .next t := (step_of_cons hcmds).symm.trans h
    cases ev with
    | hardReset running presented => exact absurd hcmds (hreset running presented rest)
    | command w =>
      refine acceptWord_labelsGrow (s := s.setCmds rest) hev ?_
      rintro rfl
      exact hinit rest hcmds

/-- Settles O44: each of the four is a read of something that a response does not change. -/
theorem readsHaveNoSideEffect : Obligations.ReadsHaveNoSideEffect := by
  intro s t rw idx h r i hi
  simp only [List.mem_cons, List.not_mem_nil, or_false] at hi
  obtain rfl | rfl | rfl | rfl := hi
  · exact (rdbit_reads idx).repeats
  · exact (rdframe_reads h).repeats
  · exact (rdbody_reads h).repeats
  · exact (rdreg_reads r).repeats

end Sys2Proof.Machine
end

section
/-! The decoder and the encoder are inverse to each other (30_encoding.md R91, R94, R96, R97); from this the
opcode map, the illegal words and the written commands (R96, R98, R99, R102), and the one response of an
accepted word (R90, R93). -/

namespace Sys2Proof.Machine

/-! ### A command as a row and an ARG -/

@[simp] theorem mnemonic_withArg (m : Mnemonic) (arg : Data) : (m.withArg arg).mnemonic = m := by
  cases m <;> rfl

theorem operandBits_le (f : Format) : f.operandBits ≤ 24 := by cases f <;> decide

/-- The operand of a command fits the operand field of its row (R94). -/
theorem arg_lt (i : Instr) : i.arg.toNat < 2 ^ i.mnemonic.format.operandBits := by
  cases i with
  | nop | init | validate => decide
  | capt b | setpol b => cases b <;> decide
  | setmaxb h | rdframe h | rdbody h => exact (BitVec.toNat_setWidth_of_le (by decide)).trans_lt h.isLt
  | extract idx | rdbit idx => exact idx.isLt
  | rdreg r => exact (BitVec.toNat_setWidth_of_le (by decide)).trans_lt r.isLt
  | clrerr m => exact (BitVec.toNat_setWidth_of_le (by decide)).trans_lt m.isLt

/-- The operand field of ARG holds the operand of a command (R94). -/
theorem extractLsb'_setWidth_eq {n : Nat} (x : BitVec n) (hn : n ≤ 24) :
    (x.setWidth 24).extractLsb' 0 n = x := by
  rw [BitVec.extractLsb'_setWidth_of_le ((Nat.zero_add n).trans_le hn), BitVec.extractLsb'_eq_self]

/-- An ARG that fits the operand field is the operand, zero-extended (R94). -/
theorem setWidth_extractLsb'_of_lt {n : Nat} {arg : Data} (h : arg.toNat < 2 ^ n) :
    (arg.extractLsb' 0 n).setWidth 24 = arg := by
  apply BitVec.eq_of_toNat_eq
  rw [BitVec.toNat_setWidth, BitVec.extractLsb'_toNat, Nat.shiftRight_zero, Nat.mod_eq_of_lt h,
    Nat.mod_eq_of_lt arg.isLt]

/-- The one-bit operand of format B, zero-extended (R94). -/
theorem setWidth_getLsbD_of_lt {arg : Data} (h : arg.toNat < 2 ^ 1) :
    (BitVec.ofBool (arg.getLsbD 0)).setWidth 24 = arg := by
  obtain rfl | rfl : arg = 0 ∨ arg = 1 := by
    have : arg.toNat = 0 ∨ arg.toNat = 1 := by omega
    simpa [← BitVec.toNat_inj] using this
  all_goals rfl

/-- The row of a command with its ARG is the command. -/
theorem withArg_arg (i : Instr) : i.mnemonic.withArg i.arg = i := by
  cases i with
  | nop | init | validate | extract _ | rdbit _ => rfl
  | capt b | setpol b => cases b <;> rfl
  | setmaxb h | rdframe h | rdbody h => exact congrArg _ (extractLsb'_setWidth_eq h (by decide))
  | rdreg r => exact congrArg Instr.rdreg (extractLsb'_setWidth_eq r (by decide))
  | clrerr m => exact congrArg Instr.clrerr (extractLsb'_setWidth_eq m (by decide))

/-- A row's command on an ARG with no reserved bit set ignores no bit of it. -/
theorem arg_withArg {m : Mnemonic} {arg : Data} (h : arg.toNat < 2 ^ m.format.operandBits) :
    (m.withArg arg).arg = arg := by
  cases m with
  | nop | init | validate => exact (BitVec.eq_of_toNat_eq (Nat.lt_one_iff.1 h)).symm
  | capt | setpol => exact setWidth_getLsbD_of_lt h
  | extract | rdbit => rfl
  | setmaxb | rdframe | rdbody | rdreg | clrerr => exact setWidth_extractLsb'_of_lt h

/-! ### The checks of the decoder -/

theorem rsvField_eq_zero_iff (w : Word) : rsvField w = 0 ↔ rsvNumber w = 0 := by
  rw [← BitVec.toNat_inj, Laws.rsvField_toNat, BitVec.ofNat_eq_ofNat, BitVec.toNat_zero]

theorem reservedBitSet_argField_iff (f : Format) (w : Word) :
    f.reservedBitSet (argField w) = true ↔ 2 ^ f.operandBits ≤ argNumber w := by
  rw [Laws.reservedBitSet_iff, Laws.argField_toNat]

/-- The decoder's checks on a word whose opcode selects the row `m` (R97). -/
theorem decode_of_row {w : Word} {m : Mnemonic} (h : Mnemonic.ofOpcode? (opField w) = some m) :
    decode w = if rsvField w ≠ 0 then .illegal .rsvNotZero
      else if m.format.reservedBitSet (argField w) then .illegal .reservedArgBit
      else .command (m.withArg (argField w)) := by
  unfold decode
  rw [h]

theorem operandWidth_opcode (m : Mnemonic) : operandWidth m.opcode.toNat = m.format.operandBits := by
  cases m <;> rfl

theorem decode_of_opNumber_ge {w : Word} (h : 12 ≤ opNumber w) : decode w = .illegal .reservedOpcode := by
  have hrow : Mnemonic.ofOpcode? (opField w) = none := by
    rwa [Laws.ofOpcode?_eq_none_iff, Laws.opField_toNat]
  unfold decode
  rw [hrow]

/-- An opcode below 12 selects a row (R96), and its format is the row's. -/
theorem exists_row {w : Word} (h : opNumber w < 12) : ∃ m : Mnemonic,
    Mnemonic.ofOpcode? (opField w) = some m ∧ m.opcode.toNat = opNumber w ∧
      operandWidth (opNumber w) = m.format.operandBits := by
  have hne : Mnemonic.ofOpcode? (opField w) ≠ none := by
    rwa [ne_eq, Laws.ofOpcode?_eq_none_iff, Laws.opField_toNat, not_le]
  obtain ⟨m, hm⟩ := Option.ne_none_iff_exists'.1 hne
  have hop : m.opcode.toNat = opNumber w := by rw [Laws.opcode_of_ofOpcode? hm, Laws.opField_toNat]
  exact ⟨m, hm, hop, hop ▸ operandWidth_opcode m⟩

theorem decode_of_rsvNumber_ne {w : Word} (hop : opNumber w < 12) (hrsv : rsvNumber w ≠ 0) :
    decode w = .illegal .rsvNotZero := by
  obtain ⟨m, hm, -, -⟩ := exists_row hop
  rw [decode_of_row hm, if_pos (mt (rsvField_eq_zero_iff w).1 hrsv)]

theorem decode_of_argNumber_ge {w : Word} (hop : opNumber w < 12) (hrsv : rsvNumber w = 0)
    (harg : 2 ^ operandWidth (opNumber w) ≤ argNumber w) : decode w = .illegal .reservedArgBit := by
  obtain ⟨m, hm, -, hwidth⟩ := exists_row hop
  rw [hwidth, ← reservedBitSet_argField_iff] at harg
  rw [decode_of_row hm, if_neg (not_not.2 ((rsvField_eq_zero_iff w).2 hrsv)), if_pos harg]

/-- A legal word is the command of its row with its ARG. -/
theorem exists_command_of_legal {w : Word} (h : ¬ IllegalWord w) :
    ∃ i, decode w = .command i ∧ i.mnemonic.opcode.toNat = opNumber w ∧ i.arg.toNat = argNumber w := by
  obtain ⟨hop, hrsv, harg⟩ : opNumber w < 12 ∧ rsvNumber w = 0 ∧
      argNumber w < 2 ^ operandWidth (opNumber w) := by
    simpa only [not_or, not_le, not_not] using h
  obtain ⟨m, hm, hopcode, hwidth⟩ := exists_row hop
  rw [hwidth] at harg
  refine ⟨m.withArg (argField w), ?_, ?_, ?_⟩
  · rw [decode_of_row hm, if_neg (not_not.2 ((rsvField_eq_zero_iff w).2 hrsv)),
      if_neg (mt (reservedBitSet_argField_iff _ w).1 harg.not_ge)]
  · rw [mnemonic_withArg, hopcode]
  · rw [arg_withArg ((Laws.argField_toNat w).trans_lt harg), Laws.argField_toNat]

/-- The illegal words are those that fail one of the three checks of R97. -/
theorem exists_illegal_iff {w : Word} : (∃ why, decode w = .illegal why) ↔ IllegalWord w := by
  constructor
  · rintro ⟨why, hwhy⟩
    by_contra hlegal
    obtain ⟨i, hi, -, -⟩ := exists_command_of_legal hlegal
    cases hwhy.symm.trans hi
  · intro h
    by_cases hop : 12 ≤ opNumber w
    · exact ⟨_, decode_of_opNumber_ge hop⟩
    by_cases hrsv : rsvNumber w = 0
    · have harg := (h.resolve_left hop).resolve_left (not_not.2 hrsv)
      exact ⟨_, decode_of_argNumber_ge (not_le.1 hop) hrsv harg⟩
    · exact ⟨_, decode_of_rsvNumber_ne (not_le.1 hop) hrsv⟩

theorem acceptWord_of_illegalWord {w : Word} (h : IllegalWord w) (s : State) :
    acceptWord w s = raise .illegal s := by
  obtain ⟨why, hdecode⟩ := exists_illegal_iff.2 h
  unfold acceptWord
  rw [hdecode]

/-! ### Decode and encode are inverse -/

/-- Decode of encode is the command. -/
theorem decode_encode (i : Instr) : decode (encode i) = .command i := by
  have hrow : Mnemonic.ofOpcode? (opField (encode i)) = some i.mnemonic := by
    rw [Laws.opField_encode, Laws.ofOpcode?_opcode]
  have harg : ¬ i.mnemonic.format.reservedBitSet i.arg = true := by
    rw [Laws.reservedBitSet_iff]
    exact (arg_lt i).not_ge
  rw [decode_of_row hrow, Laws.argField_encode, if_neg (not_not.2 (Laws.rsvField_encode i)), if_neg harg,
    withArg_arg]

/-- An accepted word is the word of its command. -/
theorem encode_of_decode {w : Word} {i : Instr} (h : decode w = .command i) : encode i = w := by
  obtain ⟨m, hop, hrsv, harg, rfl⟩ := checks_of_decode h
  rw [Laws.reservedBitSet_iff, not_le] at harg
  have hrsv : w.toNat / 2 ^ 24 % 16 = 0 := (rsvField_eq_zero_iff w).1 hrsv
  apply BitVec.eq_of_toNat_eq
  rw [Laws.encode_toNat, mnemonic_withArg, arg_withArg harg, Laws.opcode_of_ofOpcode? hop,
    Laws.opField_toNat, Laws.argField_toNat]
  omega

/-- The commands and the legal words are one to one. -/
theorem decode_eq_command_iff {w : Word} {i : Instr} : decode w = .command i ↔ encode i = w :=
  ⟨encode_of_decode, fun h => h ▸ decode_encode i⟩

/-! ### The `match` and `mask` columns of the opcode map -/

theorem matchWord_toNat (m : Mnemonic) : m.matchWord.toNat = m.opcode.toNat * 2 ^ 28 := by
  cases m <;> rfl

/-- The mask of a row is 1 outside the operand field. -/
theorem maskWord_eq (m : Mnemonic) : m.maskWord = BitVec.allOnes 32 <<< m.format.operandBits := by
  cases m <;> rfl

/-- Masking a word clears its operand field. -/
theorem and_maskWord_toNat (w : Word) (m : Mnemonic) :
    (w &&& m.maskWord).toNat = w.toNat / 2 ^ m.format.operandBits * 2 ^ m.format.operandBits := by
  have hle := Nat.div_mul_le_self w.toNat (2 ^ m.format.operandBits)
  rw [maskWord_eq, ← BitVec.shiftLeft_ushiftRight, BitVec.toNat_shiftLeft, BitVec.toNat_ushiftRight,
    Nat.shiftRight_eq_div_pow, Nat.shiftLeft_eq, Nat.mod_eq_of_lt (hle.trans_lt w.isLt)]

/-- A number with its operand field cleared is that of a row exactly when the number is the row's and an
operand. -/
theorem clearField_eq_iff (f : Format) (n op : Nat) :
    n / 2 ^ f.operandBits * 2 ^ f.operandBits = op * 2 ^ 28 ↔
      ∃ a < 2 ^ f.operandBits, n = op * 2 ^ 28 + a := by
  have hdiv : 2 ^ f.operandBits ∣ op * 2 ^ 28 :=
    (pow_dvd_pow 2 ((operandBits_le f).trans (by decide))).mul_left op
  constructor
  · intro h
    refine ⟨n % 2 ^ f.operandBits, Nat.mod_lt _ (Nat.two_pow_pos _), ?_⟩
    rw [← h, Nat.div_add_mod']
  · rintro ⟨a, ha, rfl⟩
    rw [Nat.add_div_of_dvd_right hdiv, Nat.div_eq_of_lt ha, Nat.add_zero, Nat.div_mul_cancel hdiv]

theorem arg_withArg_ofNat {m : Mnemonic} {a : Nat} (h : a < 2 ^ m.format.operandBits) :
    (m.withArg (BitVec.ofNat 24 a)).arg.toNat = a := by
  have ha : (BitVec.ofNat 24 a).toNat = a :=
    Nat.mod_eq_of_lt (h.trans_le (Nat.pow_le_pow_right (by decide) (operandBits_le m.format)))
  rw [arg_withArg (ha.symm ▸ h), ha]

/-- The word of a row's command is the row's `match` with the operand added (R96). -/
theorem encode_toNat_eq_matchWord_add (i : Instr) :
    (encode i).toNat = i.mnemonic.matchWord.toNat + i.arg.toNat := by
  rw [Laws.encode_toNat, matchWord_toNat]

/-- A word is a row's command exactly when it is the row's `match` outside the operand field (R96). -/
theorem exists_row_command_iff (w : Word) (m : Mnemonic) :
    (∃ i, decode w = .command i ∧ i.mnemonic = m) ↔ w &&& m.maskWord = m.matchWord := by
  rw [← BitVec.toNat_inj, and_maskWord_toNat, matchWord_toNat, clearField_eq_iff]
  simp only [decode_eq_command_iff, ← BitVec.toNat_inj, Laws.encode_toNat]
  constructor
  · rintro ⟨i, hi, rfl⟩
    exact ⟨i.arg.toNat, arg_lt i, hi.symm⟩
  · rintro ⟨a, ha, hw⟩
    refine ⟨m.withArg (BitVec.ofNat 24 a), ?_, mnemonic_withArg m _⟩
    rw [mnemonic_withArg, arg_withArg_ofNat ha, hw]

/-! ### Written commands -/

/-- A command is written with its ARG, where its row has an operand (R102). -/
theorem text_operand (i : Instr) : i.text.operand = i.mnemonic.operandBound.map fun _ => i.arg.toNat := by
  cases i with
  | nop | init | validate | extract _ | rdbit _ => rfl
  | capt b | setpol b => cases b <;> rfl
  | setmaxb x | rdframe x | rdbody x | rdreg x | clrerr x =>
    exact congrArg some (BitVec.toNat_setWidth_of_le (by decide)).symm

/-- Where the row has no operand, ARG is 0. -/
theorem text_operand_getD (i : Instr) : i.text.operand.getD 0 = i.arg.toNat := by
  rw [text_operand]
  cases i <;> rfl

theorem eq_of_operandBound_eq_some {m : Mnemonic} {n : Nat} (h : m.operandBound = some n) :
    n = 2 ^ m.format.operandBits := by
  cases m <;> cases h <;> rfl

/-- What the check of R102 lets through. -/
theorem operand_of_wellFormed {t : CommandText} (h : t.wellFormed = true) :
    t.operand = t.mnemonic.operandBound.map (fun _ => t.operand.getD 0) ∧
      t.operand.getD 0 < 2 ^ t.mnemonic.format.operandBits := by
  unfold CommandText.wellFormed at h
  split at h
  next hbound hoperand =>
    rw [hbound, hoperand]
    exact ⟨rfl, Nat.two_pow_pos _⟩
  next bound n hbound hoperand =>
    rw [hbound, hoperand]
    exact ⟨rfl, (of_decide_eq_true h).trans_eq (eq_of_operandBound_eq_some hbound)⟩
  · cases h

/-- A well-formed written command stands for a command that is written so. -/
theorem text_withArg_ofNat {t : CommandText} (h : t.wellFormed = true) :
    (t.mnemonic.withArg (BitVec.ofNat 24 (t.operand.getD 0))).text = t := by
  obtain ⟨hoperand, hlt⟩ := operand_of_wellFormed h
  have hm : (t.mnemonic.withArg (BitVec.ofNat 24 (t.operand.getD 0))).text.mnemonic = t.mnemonic :=
    mnemonic_withArg _ _
  have ho := text_operand (t.mnemonic.withArg (BitVec.ofNat 24 (t.operand.getD 0)))
  rw [mnemonic_withArg, arg_withArg_ofNat hlt, ← hoperand] at ho
  exact congrArg₂ CommandText.mk hm ho

/-- Every command is well formed: its operand has exactly the width of its field (R102). -/
theorem wellFormed_instr (i : Instr) : i.wellFormed = true := by
  cases i with
  | nop => exact Laws.WellFormed.nop
  | init => exact Laws.WellFormed.init
  | capt b => exact Laws.WellFormed.capt b
  | setpol b => exact Laws.WellFormed.setpol b
  | setmaxb h => exact Laws.WellFormed.setmaxb h
  | extract idx => exact Laws.WellFormed.extract idx
  | validate => exact Laws.WellFormed.validate
  | rdbit idx => exact Laws.WellFormed.rdbit idx
  | rdframe h => exact Laws.WellFormed.rdframe h
  | rdbody h => exact Laws.WellFormed.rdbody h
  | rdreg r => exact Laws.WellFormed.rdreg r
  | clrerr m => exact Laws.WellFormed.clrerr m

/-! ### The response of a refused word -/

/-- The three fault words (60_exceptions.md R211). -/
theorem faultWord_cases (f : CmdFault) :
    faultWord f = 0x90000000 ∨ faultWord f = 0xA0000000 ∨ faultWord f = 0xB0000000 := by
  cases f with
  | illegal => exact .inl faultWord_illegal
  | operand => exact .inr (.inl faultWord_operand)
  | ovf => exact .inr (.inr faultWord_ovf)

/-! ### The obligations -/

/-- Settles O1: the word's fields are the row and the operand, and the decoder reads them back. -/
theorem everyCommandDecodesFromItsWord : Obligations.EveryCommandDecodesFromItsWord :=
  fun i => ⟨wellFormed_instr i, decode_encode i⟩

/-- Settles O2: the checks of R97 leave no bit of the word unread. -/
theorem acceptedWordIsTheWordOfItsCommand : Obligations.AcceptedWordIsTheWordOfItsCommand :=
  fun _ _ => encode_of_decode

/-- Settles O3: the rows written out are the model's `match` and `mask` columns. -/
theorem opcodeMapSelectsTheRow : Obligations.OpcodeMapSelectsTheRow := by
  intro w
  show ∀ row ∈ allMnemonics.map fun m => (m, m.matchWord, m.maskWord), _
  rw [List.forall_mem_map]
  exact fun m _ => exists_row_command_iff w m

/-- Settles O4: one lemma for each check, and the row's command for a word that passes all three. -/
theorem decoderChecksInOrder : Obligations.DecoderChecksInOrder := by
  refine fun w => ⟨decode_of_opNumber_ge, decode_of_rsvNumber_ne, decode_of_argNumber_ge, fun h => ?_⟩
  obtain ⟨i, hdecode, hop, harg⟩ := exists_command_of_legal h
  exact ⟨i, hdecode, hop, (text_operand_getD i).trans harg⟩

/-- Settles O5: the command is the row's with the operand as its ARG. -/
theorem writtenCommandStandsForOneWord : Obligations.WrittenCommandStandsForOneWord := by
  intro t
  constructor
  · intro h
    obtain ⟨-, hlt⟩ := operand_of_wellFormed h
    refine ⟨_, if_pos h, text_withArg_ofNat h, ?_⟩
    rw [encode_toNat_eq_matchWord_add, mnemonic_withArg, arg_withArg_ofNat hlt]
  · exact fun h => if_neg (Bool.not_eq_true _ ▸ h)

/-- Settles O9: the step refuses the word, and `raise` writes its ERR bit and one response. -/
theorem illegalWordIsRefused : Obligations.IllegalWordIsRefused := by
  intro s w rest hcmds hw
  calc step s = acceptWord w (s.setCmds rest) := step_of_cons hcmds
    _ = raise .illegal (s.setCmds rest) := acceptWord_of_illegalWord hw _
    _ = _ := by rw [raise_eq, faultWord_illegal]; rfl

/-- Settles O14: the word completes or raises, and either way one response is appended. -/
theorem everyAcceptedWordGetsOneResponse : Obligations.EveryAcceptedWordGetsOneResponse := by
  intro s w rest hcmds
  have hstep : step s = acceptWord w (s.setCmds rest) := step_of_cons hcmds
  obtain ⟨d, u, hc, hr, h⟩ | ⟨f, h⟩ := completesOrRaises_acceptWord w (s.setCmds rest)
  · refine ⟨u.respond (okWord d), okWord d, hstep.trans h, hc, congrArg (· ++ [okWord d]) hr, .inl ?_⟩
    rw [okWord_toNat]
    exact d.isLt
  · exact ⟨_, faultWord f, hstep.trans h, rfl, rfl, .inr (faultWord_cases f)⟩

/-- Settles O6: the fields of sixteen fixed words, computed. -/
theorem exampleWordsDecode : Obligations.ExampleWordsDecode := by
  unfold Obligations.ExampleWordsDecode
  decide

/-- Settles O7: the words of six fixed lines, computed. -/
theorem exampleLinesAssemble : Obligations.ExampleLinesAssemble := by
  unfold Obligations.ExampleLinesAssemble
  decide

end Sys2Proof.Machine
end

section
/-! The bit-decision register (40_capture.md R121 to R125): CAPT, SETPOL and RDBIT from their words to the
states and responses they leave, and what does not change when the labels and POL change together. -/

namespace Sys2Proof.Machine

/-! ### Words and responses as numbers -/

/-- A command's word from the number of its operand (30_encoding.md R91, R96). -/
theorem encode_eq_of_arg {i : Instr} {n : Nat} (h : i.arg.toNat = n) :
    encode i = BitVec.ofNat 32 (i.mnemonic.matchWord.toNat + n) := by
  rw [← h, ← encode_toNat_eq_matchWord_add, BitVec.ofNat_toNat, BitVec.setWidth_eq]

@[simp] theorem bitData_toNat (b : Bool) : (bitData b).toNat = b.toNat := by cases b <;> rfl

/-- The response that returns a bit. -/
theorem okWord_bitData (b : Bool) : okWord (bitData b) = if b then 0x00000001 else 0x00000000 := by
  cases b <;> rfl

/-- The response that returns a committed bit says whether its label differs from POL (00_scope.md R13). -/
theorem okWord_bitData_xor (label pol : Bool) :
    okWord (bitData (label ^^ pol)) = if label = pol then 0x00000000 else 0x00000001 := by
  rw [okWord_bitData]
  cases label <;> cases pol <;> rfl

/-- The response that returns LEN, where LEN fits its register (10_state.md R21). -/
theorem okWord_lenReg {s : State} (h : s.len < 2 ^ 24) : okWord s.lenReg = BitVec.ofNat 32 s.len := by
  rw [okWord_eq, State.lenReg, BitVec.toNat_ofNat, Nat.mod_eq_of_lt h]

/-! ### The label store under CAPT -/

section Capture

variable {s u : State}

/-- CAPT on a full store is refused with OVF (40_capture.md R121). -/
theorem exec_capt_of_full (b : Bool) (hfull : s.len = s.cfg.ldepth.toNat) :
    exec (.capt b) s = .next { s with err := s.err ||| 0b100, rsps := s.rsps ++ [0xB0000000] } :=
  calc exec (.capt b) s = raise .ovf s := if_pos hfull
    _ = _ := by rw [raise_eq, faultWord_ovf]; rfl

/-- CAPT on a store with room appends the label and returns the new LEN (40_capture.md R121). -/
theorem exec_capt_of_room (b : Bool) (hroom : s.len ≠ s.cfg.ldepth.toNat) :
    exec (.capt b) s = .next ((s.appendLabel b).respond (okWord (s.appendLabel b).lenReg)) :=
  if_neg hroom

/-- Within the invariant the new LEN fits its register (10_state.md R23). -/
theorem okWord_lenReg_appendLabel (b : Bool) (hinv : s.BdrInv) (hroom : s.len ≠ s.cfg.ldepth.toNat) :
    okWord (s.appendLabel b).lenReg = BitVec.ofNat 32 (s.len + 1) := by
  have hdepth := s.cfg.ldepth.isLt
  have hlt : s.len < s.cfg.ldepth.toNat := Nat.lt_of_le_of_ne hinv hroom
  rw [okWord_lenReg, State.appendLabel_len]
  rw [State.appendLabel_len]
  omega

/-- On a full store CAPT has no room, and no other command but INIT writes the labels. -/
theorem MayWrite.lbl_eq_of_full {i : Instr} (h : MayWrite s i u) (hfull : s.len = s.cfg.ldepth.toNat)
    (hi : i ≠ .init) : u.lbl = s.lbl := by
  cases h with
  | capt _ hroom => exact absurd hfull hroom
  | init => exact absurd rfl hi
  | _ => rfl

/-- So a full store stays full. -/
theorem MayWrite.full {i : Instr} (h : MayWrite s i u) (hfull : s.len = s.cfg.ldepth.toNat)
    (hi : i ≠ .init) : u.len = u.cfg.ldepth.toNat := by
  rw [State.len, h.lbl_eq_of_full hfull hi, h.cfg_eq]
  exact hfull

end Capture

/-! ### What RDBIT reads -/

/-- RDBIT's operand names a label below LEN, read under POL (00_scope.md R13). -/
theorem bitOperand?_eq_labelAt (s : State) (idx : Data) :
    bitOperand? s idx = (s.labelAt idx.toNat).map fun label => bitData (label ^^ s.pol) := by
  rw [bitOperand?, bit?_eq_labelAt, Option.map_map]
  rfl

/-! ### Runs that differ in the labels and POL -/

/-- `s` with other labels and another polarity in the bit-decision register. -/
def State.setBdr (lbl : List Bool) (pol : Bool) (s : State) : State := { s with lbl := lbl, pol := pol }

/-- With every label and POL complemented the committed bits are the same (40_capture.md R124). -/
theorem bits_setBdr_complement (s : State) : (s.setBdr (s.lbl.map not) (!s.pol)).bits = s.bits := by
  simp [State.bits, State.setBdr]

/-- A read of one value ends alike under any labels and POL (20_memory.md R69). -/
theorem readOperand_setBdr (v : Option Data) (s : State) (lbl : List Bool) (pol : Bool) :
    ∃ t, readOperand v s = .next t ∧ readOperand v (s.setBdr lbl pol) = .next (t.setBdr lbl pol) := by
  cases v with
  | none => exact ⟨_, rfl, rfl⟩
  | some d => exact ⟨_, rfl, rfl⟩

section SameBits

variable {s : State} {lbl : List Bool} {pol : Bool}

/-- RDBIT sees the labels and POL through the committed bits only. -/
theorem bitOperand?_setBdr (hbits : (s.setBdr lbl pol).bits = s.bits) (idx : Data) :
    bitOperand? (s.setBdr lbl pol) idx = bitOperand? s idx := by
  rw [bitOperand?, State.bit?, hbits]
  rfl

/-- EXTRACT sees the labels and POL through the committed bits only. -/
theorem extracted_setBdr (hbits : (s.setBdr lbl pol).bits = s.bits) (idx : Data) :
    extracted idx (s.setBdr lbl pol) = (extracted idx s).setBdr lbl pol := by
  rw [extracted, hbits]
  rfl

/-- EXTRACT and RDBIT answer alike on labels and polarities that commit the same bits. -/
theorem exec_setBdr (hbits : (s.setBdr lbl pol).bits = s.bits) {idx : Data} {i : Instr}
    (hi : i = .extract idx ∨ i = .rdbit idx) :
    ∃ t, exec i s = .next t ∧ exec i (s.setBdr lbl pol) = .next (t.setBdr lbl pol) := by
  obtain rfl | rfl := hi
  · rw [exec_extract, exec_extract, execExtract_eq, execExtract_eq, extracted_setBdr hbits]
    exact ⟨_, rfl, rfl⟩
  · rw [exec_rdbit, exec_rdbit, execRdbit, execRdbit, bitOperand?_setBdr hbits]
    exact readOperand_setBdr _ s lbl pol

end SameBits

/-! ### The obligations -/

/-- Settles O19: the refused and the completing CAPT, and every command but INIT on a full store. -/
theorem captAppendsOneLabel : Obligations.CaptAppendsOneLabel := by
  refine ⟨fun b => encode_eq_of_arg (i := .capt b) (bitData_toNat b), fun s b hinv =>
    ⟨exec_capt_of_full b, fun hroom => ?_, fun hfull i t hi h => ?_⟩⟩
  · obtain ⟨-, hbdr, -⟩ := hinv
    refine ⟨_, exec_capt_of_room b hroom, rfl, State.appendLabel_len s b, labelAt_appendLabel_len s b,
      fun i hne => labelAt_appendLabel_of_ne s b hne, ?_⟩
    rw [← okWord_lenReg_appendLabel b hbdr hroom]
    rfl
  · obtain ⟨u, rw, hu, rfl⟩ := exec_eq_next h
    exact hu.full hfull hi

/-- Settles O22: below LEN the operand names a label and RDBIT returns it under POL; at LEN and beyond it
names none. -/
theorem rdbitReadsTheCommittedBit : Obligations.RdbitReadsTheCommittedBit := by
  refine ⟨fun idx => encode_eq_of_arg (i := .rdbit idx) rfl, fun s idx =>
    ⟨fun label hlabel => ?_, fun hlen => ?_, fun hlen => ?_⟩⟩
  · rw [exec_rdbit, execRdbit, bitOperand?_eq_labelAt, hlabel, ← okWord_bitData_xor]
    rfl
  · rw [exec_rdbit, execRdbit, bitOperand?_eq_labelAt, (labelAt_eq_none_iff s _).2 hlen, ← faultWord_operand]
    rfl
  · exact Option.ne_none_iff_exists'.1 (mt (labelAt_eq_none_iff s _).1 (Nat.not_le.2 hlen))

/-- Settles O23: complementing every label and POL keeps the committed bits, and EXTRACT and RDBIT see
nothing else of them. -/
theorem polarityInvariance : Obligations.PolarityInvariance := by
  intro s
  refine ⟨fun i => congrArg (fun bits => bits[i]?) (bits_setBdr_complement s), fun idx i hi => ?_⟩
  exact exec_setBdr (bits_setBdr_complement s) (by simpa using hi)

/-- Settles O21: SETPOL writes its operand to POL and returns it. -/
theorem setpolWritesPolOnly : Obligations.SetpolWritesPolOnly := by
  refine ⟨fun b => encode_eq_of_arg (i := .setpol b) (bitData_toNat b), fun s b => ?_⟩
  rw [← okWord_bitData]
  rfl

end Sys2Proof.Machine
end

section
/-! The UART frame extractor (41_extract.md R141 to R150): SETMAXB, EXTRACT and RDFRAME from their words to
the states and responses they leave, and what the loop of EXTRACT depends on. -/

namespace Sys2Proof.Machine

/-! ### Reading FB -/

/-- Every index below FCNT holds a byte (10_state.md R24). -/
theorem exists_frameAt_of_lt {s : State} {j : Nat} (h : j < s.fcnt) : ∃ b, s.frameAt j = some b :=
  Option.ne_none_iff_exists'.1 (mt (frameAt_eq_none_iff s j).1 h.not_ge)

/-- The response that returns a byte. -/
theorem okWord_byteData (b : Byte) : okWord (byteData b) = BitVec.ofNat 32 b.toNat := by
  rw [okWord_eq, byteData, BitVec.toNat_setWidth_of_le (by decide)]

/-! ### One round of the loop -/

section Loop

variable {bits bits' : List Bool} {p room room' : Nat} {c : Character}

theorem extractLoop_succ_of_none (hc : characterAt? bits p = none) (room : Nat) :
    extractLoop bits (room + 1) p = { bytes := [], pos := p, cause := .short } := by
  rw [extractLoop, hc]

/-- A character with start bit 0 and stop bit 1 is stored and the loop goes on (41_extract.md R146). -/
theorem extractLoop_succ_of_framed (hc : characterAt? bits p = some c) (hstart : c.start = false)
    (hstop : c.stop = true) (room : Nat) :
    extractLoop bits (room + 1) p =
      { extractLoop bits room (p + charBits) with
        bytes := c.data :: (extractLoop bits room (p + charBits)).bytes } := by
  rw [extractLoop, hc]
  simp only [hstart, hstop, Bool.false_eq_true, if_false, Bool.not_true]

/-- Any other complete character ends the loop, whatever room is left (41_extract.md R144). -/
theorem extractLoop_succ_of_not_framed (hc : characterAt? bits p = some c)
    (h : ¬ (c.start = false ∧ c.stop = true)) (room : Nat) :
    extractLoop bits (room + 1) p =
      { bytes := [], pos := p, cause := if c.start then .start else .stop } := by
  rw [extractLoop, hc]
  cases hstart : c.start with
  | true => simp only [hstart, if_true]
  | false =>
    have hstop : c.stop = false := Bool.eq_false_of_not_eq_true fun hstop => h ⟨hstart, hstop⟩
    simp only [hstart, hstop, Bool.false_eq_true, if_false, Bool.not_false, if_true]

/-! ### What the loop depends on -/

theorem characterAt?_congr (h : bits'.drop p = bits.drop p) :
    characterAt? bits' p = characterAt? bits p := by
  rw [characterAt?, characterAt?, h]

/-- A complete character is the same with bits appended. -/
theorem characterAt?_append (more : List Bool) (hc : characterAt? bits p = some c) :
    characterAt? (bits ++ more) p = some c := by
  obtain ⟨hp, -⟩ := characterAt?_fields hc
  have hten : charBits ≤ (bits.drop p).length := by
    rw [List.length_drop, charBits]
    omega
  rw [← hc, characterAt?, characterAt?, List.drop_append_of_le_length (by omega),
    List.take_append_of_le_length hten]

/-- The bits below the starting position do not matter (41_extract.md R150). -/
theorem extractLoop_congr (h : bits'.drop p = bits.drop p) (room : Nat) :
    extractLoop bits' room p = extractLoop bits room p := by
  induction room generalizing p with
  | zero => rfl
  | succ room ih =>
    have hnext : bits'.drop (p + charBits) = bits.drop (p + charBits) := by
      rw [← List.drop_drop, h, List.drop_drop]
    rw [extractLoop, extractLoop, characterAt?_congr h, ih hnext]

/-- A smaller cap gives a prefix of the bytes (41_extract.md R150 b). -/
theorem extractLoop_bytes_prefix_of_le (h : room' ≤ room) :
    (extractLoop bits room' p).bytes <+: (extractLoop bits room p).bytes := by
  induction room' generalizing room p with
  | zero => exact List.nil_prefix
  | succ room' ih =>
    obtain _ | room := room
    · exact absurd h (Nat.not_succ_le_zero room')
    cases hc : characterAt? bits p with
    | none =>
      rw [extractLoop_succ_of_none hc]
      exact List.nil_prefix
    | some c =>
      by_cases hframed : c.start = false ∧ c.stop = true
      · obtain ⟨hstart, hstop⟩ := hframed
        rw [extractLoop_succ_of_framed hc hstart hstop, extractLoop_succ_of_framed hc hstart hstop]
        exact List.cons_prefix_cons.2 ⟨rfl, ih (Nat.le_of_succ_le_succ h)⟩
      · rw [extractLoop_succ_of_not_framed hc hframed]
        exact List.nil_prefix

/-- With bits appended the loop goes on only where it halted with SHORT (41_extract.md R150 c). -/
theorem extractLoop_append (bits more : List Bool) (room p : Nat) :
    (extractLoop bits room p).bytes <+: (extractLoop (bits ++ more) room p).bytes ∧
      ((extractLoop bits room p).cause ≠ .short →
        extractLoop (bits ++ more) room p = extractLoop bits room p) := by
  induction room generalizing p with
  | zero => exact ⟨List.prefix_rfl, fun _ => rfl⟩
  | succ room ih =>
    cases hc : characterAt? bits p with
    | none =>
      rw [extractLoop_succ_of_none hc]
      exact ⟨List.nil_prefix, fun hshort => absurd rfl hshort⟩
    | some c =>
      have hc' := characterAt?_append more hc
      by_cases hframed : c.start = false ∧ c.stop = true
      · obtain ⟨hstart, hstop⟩ := hframed
        obtain ⟨hprefix, hsame⟩ := ih (p + charBits)
        rw [extractLoop_succ_of_framed hc hstart hstop, extractLoop_succ_of_framed hc' hstart hstop]
        exact ⟨List.cons_prefix_cons.2 ⟨rfl, hprefix⟩, fun hne => by rw [hsame hne]⟩
      · rw [extractLoop_succ_of_not_framed hc hframed, extractLoop_succ_of_not_framed hc' hframed]
        exact ⟨List.prefix_rfl, fun _ => rfl⟩

end Loop

/-! ### The state EXTRACT leaves -/

section Extracted

variable {s t : State} {idx : Data}

/-- EXTRACT completes, and its response shows the HALT and FCNT it leaves (41_extract.md R143). -/
theorem exec_extract_eq (idx : Data) (s : State) :
    exec (.extract idx) s = .next ((extracted idx s).respond (okWord (extractData (extracted idx s)))) :=
  rfl

theorem eq_of_exec_extract (h : exec (.extract idx) s = .next t) :
    t = (extracted idx s).respond (okWord (extractData (extracted idx s))) :=
  Host.Outcome.next.inj (h.symm.trans (exec_extract_eq idx s))

theorem extracted_fcnt_le (idx : Data) (s : State) : (extracted idx s).fcnt ≤ s.maxb.toNat :=
  (extractLoop_spec s.bits s.maxb.toNat idx.toNat).1

/-- POS is ten bits past `idx` for every byte stored; it fits its register, being `idx` or within the
committed bits (41_extract.md R143). -/
theorem extracted_pos_toNat (idx : Data) (hbdr : s.BdrInv) :
    (extracted idx s).pos.toNat = idx.toNat + 10 * (extracted idx s).fcnt := by
  obtain ⟨-, hpos, -, -⟩ := extractLoop_spec s.bits s.maxb.toNat idx.toNat
  have hfits : (extractLoop s.bits s.maxb.toNat idx.toNat).pos < 2 ^ 24 := by
    have hidx := idx.isLt
    have hdepth := s.cfg.ldepth.isLt
    have hlen := s.bits_length
    rcases Nat.eq_zero_or_pos (extractLoop s.bits s.maxb.toNat idx.toNat).bytes.length with hzero | hstored
    · omega
    · have hle := extractLoop_pos_le hstored
      omega
  exact (BitVec.toNat_ofNat _ _).trans ((Nat.mod_eq_of_lt hfits).trans hpos)

/-- Every byte in FB is the character at its stride (41_extract.md R143, R146). -/
theorem accepts_of_extracted_frameAt {j : Nat} {b : Byte} (h : (extracted idx s).frameAt j = some b) :
    Accepts s.bits (idx.toNat + 10 * j) b :=
  (extractLoop_spec s.bits s.maxb.toNat idx.toNat).2.2.1 j b h

/-- HALT is the cause at the first character not stored (41_extract.md R144). -/
theorem extracted_haltsWith (idx : Data) (s : State) :
    HaltsWith s.bits (s.maxb.toNat - (extracted idx s).fcnt) (idx.toNat + 10 * (extracted idx s).fcnt)
      (extracted idx s).halt := by
  obtain ⟨-, hpos, -, hhalt⟩ := extractLoop_spec s.bits s.maxb.toNat idx.toNat
  rwa [hpos] at hhalt

/-- The DATA of EXTRACT as a number (41_extract.md R143). -/
theorem extractData_toNat (h : s.fcnt < 2 ^ 16) :
    (extractData s).toNat = s.halt.code.toNat * 65536 + s.fcnt := by
  have hreg : s.fcntReg.toNat = s.fcnt := (BitVec.toNat_ofNat _ _).trans (Nat.mod_eq_of_lt h)
  show (0#5 ++ (s.halt.code ++ s.fcntReg) : BitVec (5 + (3 + 16))).toNat = _
  rw [BitVec.toNat_append, BitVec.toNat_append, BitVec.toNat_zero, Nat.zero_shiftLeft, Nat.zero_or,
    ← Nat.shiftLeft_add_eq_or_of_lt s.fcntReg.isLt, Nat.shiftLeft_eq, hreg]

/-- EXTRACT leaves the same frame, position and cause wherever the loop does. -/
theorem extracted_frame_congr {s' : State}
    (h : extractLoop s'.bits s'.maxb.toNat idx.toNat = extractLoop s.bits s.maxb.toNat idx.toNat) :
    (extracted idx s').fb = (extracted idx s).fb ∧ (extracted idx s').pos = (extracted idx s).pos ∧
      (extracted idx s').halt = (extracted idx s).halt := by
  unfold extracted
  rw [h]
  exact ⟨rfl, rfl, rfl⟩

/-- Labels that leave the loop as it was leave EXTRACT as it was. -/
theorem extracted_setBdr_of_loop {lbl : List Bool} {pol : Bool}
    (h : extractLoop (s.setBdr lbl pol).bits s.maxb.toNat idx.toNat =
      extractLoop s.bits s.maxb.toNat idx.toNat) :
    extracted idx (s.setBdr lbl pol) = (extracted idx s).setBdr lbl pol := by
  unfold extracted
  rw [show (s.setBdr lbl pol).maxb = s.maxb from rfl, h]
  rfl

theorem bits_append_lbl (s : State) (more : List Bool) :
    (s.setBdr (s.lbl ++ more) s.pol).bits = s.bits ++ more.map (fun label => label ^^ s.pol) :=
  List.map_append

/-- A bit index from which two states hold the same labels is one from which they commit the same bits
(00_scope.md R13). -/
theorem bits_drop_congr {s' : State} {p : Nat} (hpol : s'.pol = s.pol)
    (hlbl : s'.lbl.drop p = s.lbl.drop p) : s'.bits.drop p = s.bits.drop p := by
  rw [State.bits, State.bits, ← List.map_drop, ← List.map_drop, hpol, hlbl]

end Extracted

/-! ### The obligations -/

/-- Settles O26: the loop's own specification, read off the state EXTRACT leaves. -/
theorem extractAcceptsCharactersAndHalts : Obligations.ExtractAcceptsCharactersAndHalts := by
  refine ⟨fun idx => encode_eq_of_arg (i := .extract idx) rfl, fun s idx hinv => ?_⟩
  obtain ⟨-, hbdr, -, -⟩ := hinv
  have hcap := extracted_fcnt_le idx s
  have hhalt := extracted_haltsWith idx s
  refine ⟨_, (extracted idx s).fcnt, (extracted idx s).halt.code.toNat, exec_extract_eq idx s, rfl, rfl,
    extracted_pos_toNat idx hbdr, ?_, fun j hj => ?_, ?_⟩
  · rw [← extractData_toNat (hcap.trans_lt s.maxb.isLt), ← okWord_eq]
    rfl
  · obtain ⟨b, hb⟩ := exists_frameAt_of_lt hj
    obtain ⟨hten, hstart, hstop, hdata⟩ := accepts_of_extracted_frameAt hb
    exact ⟨hj.trans_le hcap, s.bits_length ▸ hten, hstart, hstop, b, hb, hdata⟩
  · rw [State.respond_halt]
    generalize (extracted idx s).halt = cause at hhalt ⊢
    cases cause with
    | none => exact hhalt
    | cap => exact ⟨rfl, Nat.le_antisymm hcap (Nat.sub_eq_zero_iff_le.1 hhalt)⟩
    | short =>
      obtain ⟨hroom, hshort⟩ := hhalt
      exact ⟨rfl, Nat.lt_of_sub_pos hroom, s.bits_length ▸ hshort⟩
    | start =>
      obtain ⟨hroom, hten, hstart⟩ := hhalt
      exact ⟨rfl, Nat.lt_of_sub_pos hroom, s.bits_length ▸ hten, hstart⟩
    | stop =>
      obtain ⟨hroom, hten, hstart, hstop⟩ := hhalt
      exact ⟨rfl, Nat.lt_of_sub_pos hroom, s.bits_length ▸ hten, hstart, hstop⟩

/-- Settles O27: the loop on the bits from `idx` on, under a smaller cap, and on more bits. -/
theorem extractDependsOnItsInputsOnly : Obligations.ExtractDependsOnItsInputsOnly := by
  refine ⟨fun s s' t t' idx hmaxb _ hpol hlbl ht ht' => ?_, fun s t t' idx cap hcap ht ht' => ?_,
    fun s t t' idx more ht ht' => ?_⟩
  · rw [eq_of_exec_extract ht, eq_of_exec_extract ht']
    refine extracted_frame_congr ?_
    rw [hmaxb, extractLoop_congr (bits_drop_congr hpol hlbl)]
  · rw [eq_of_exec_extract ht, eq_of_exec_extract ht']
    exact extractLoop_bytes_prefix_of_le hcap
  · obtain ⟨hprefix, hsame⟩ := extractLoop_append s.bits (more.map fun label => label ^^ s.pol)
      s.maxb.toNat idx.toNat
    rw [← bits_append_lbl] at hprefix hsame
    rw [eq_of_exec_extract ht, eq_of_exec_extract (s := s.setBdr (s.lbl ++ more) s.pol) ht']
    refine ⟨hprefix, fun hne => ?_⟩
    rw [extracted_setBdr_of_loop (hsame hne)]
    rfl

/-- Settles O25: a cap above FDEPTH is refused, any other is written and returned. -/
theorem setmaxbWritesOrRefuses : Obligations.SetmaxbWritesOrRefuses := by
  have harg (h : Half) : (h.setWidth 24).toNat = h.toNat := BitVec.toNat_setWidth_of_le (by decide)
  refine ⟨fun h => encode_eq_of_arg (i := .setmaxb h) (harg h), fun s h => ⟨fun habove => ?_, fun hle => ?_⟩⟩
  · calc exec (.setmaxb h) s = raise .operand s := if_pos habove
      _ = _ := by rw [raise_eq, faultWord_operand]; rfl
  · calc exec (.setmaxb h) s = complete (h.setWidth 24) (s.setMaxb h) := if_neg hle.not_gt
      _ = _ := by rw [complete_eq, okWord_eq, harg]; rfl

/-- Settles O28: below FCNT the operand names a byte and RDFRAME returns it; at FCNT and beyond it names
none. -/
theorem rdframeReadsTheFrameByte : Obligations.RdframeReadsTheFrameByte := by
  refine ⟨fun h => encode_eq_of_arg (i := .rdframe h) (BitVec.toNat_setWidth_of_le (by decide)), fun s h =>
    ⟨fun b hb => ?_, fun hfcnt => ?_, exists_frameAt_of_lt⟩⟩
  · rw [exec_rdframe, execRdframe, frameOperand?, hb, ← okWord_byteData]
    rfl
  · rw [exec_rdframe, execRdframe, frameOperand?, (frameAt_eq_none_iff s _).2 hfcnt, ← faultWord_operand]
    rfl

end Sys2Proof.Machine
end

section
/-! The CRC/checksum validator (42_validate.md R161 to R171): `rev8`, the checksum and that no byte of a
message is lost in it, the order of the trials, and VALIDATE and RDBODY from their words to the states and
responses they leave. -/

namespace Sys2Proof.Machine

/-! ### Bit reversal -/

/-- Bit k of the reversed byte (42_validate.md R161). -/
theorem rev8_getLsbD (b : Byte) {k : Nat} (hk : k < 8) : (rev8 b).getLsbD k = b.getLsbD (7 - k) := by
  rw [rev8, BitVec.getLsbD_reverse, BitVec.getMsbD, decide_eq_true hk, Bool.true_and]

@[simp] theorem rev8_rev8 (b : Byte) : rev8 (rev8 b) = b := BitVec.reverse_reverse_eq

/-- On a frame of palindromes both candidates are the frame (42_validate.md R169). -/
theorem candidate_of_palindromes {frame : List Byte} (h : ∀ b ∈ frame, rev8 b = b) (r : Bool) :
    candidate r frame = frame := by
  refine (List.map_congr_left fun b hb => ?_).trans (List.map_id frame)
  cases r with
  | false => rfl
  | true => exact h b hb

/-! ### The checksum -/

/-- The bit shifted out of the checksum register is its bit 15 (42_validate.md R163). -/
theorem crcShift_eq (c : Half) : crcShift c = if c.getLsbD 15 then c <<< 1 ^^^ 0x1021#16 else c <<< 1 := by
  rw [crcShift, BitVec.msb_eq_getLsbD_last]
  rfl

/-- The polynomial is odd, so the bit shifted out shows at the other end. -/
theorem crcShift_getLsbD_zero (c : Half) : (crcShift c).getLsbD 0 = c.msb := by
  cases hmsb : c.msb with
  | false => simp [crcShift, hmsb]
  | true => simp [crcShift, hmsb, crcPoly]

/-- One shift loses nothing: bit 0 tells the bit shifted out, and with it whether the polynomial was
applied. -/
theorem crcShift_injective : Function.Injective crcShift := by
  intro c d h
  have hmsb : c.msb = d.msb := by rw [← crcShift_getLsbD_zero, h, crcShift_getLsbD_zero]
  have hshift : c <<< 1 = d <<< 1 := by
    unfold crcShift at h
    rw [hmsb] at h
    split at h
    · exact (BitVec.xor_left_inj _).1 h
    · exact h
  rw [BitVec.msb_eq_decide, BitVec.msb_eq_decide, decide_eq_decide] at hmsb
  rw [← BitVec.toNat_inj, BitVec.toNat_shiftLeft, BitVec.toNat_shiftLeft, Nat.shiftLeft_eq,
    Nat.shiftLeft_eq] at hshift
  apply BitVec.eq_of_toNat_eq
  omega

theorem repeat_injective {α : Type} {f : α → α} (hf : Function.Injective f) (n : Nat) :
    Function.Injective (Nat.repeat f n) := by
  induction n with
  | zero => exact fun _ _ h => h
  | succ n ih => exact hf.comp ih

/-- Entering a byte loses nothing of the register. -/
theorem crcByte_injective (b : Byte) : Function.Injective (crcByte · b) := fun _ _ h =>
  (BitVec.xor_left_inj _).1 (repeat_injective crcShift_injective 8 h)

/-- Different bytes enter a register differently. -/
theorem crcByte_injective_byte (c : Half) : Function.Injective (crcByte c) := by
  intro b b' h
  have hentered := (BitVec.xor_right_inj _).1 (repeat_injective crcShift_injective 8 h)
  bv_omega

/-- The rest of a message keeps different registers different. -/
theorem crc16_injective (m : List Byte) : Function.Injective (crc16 · m) := by
  induction m with
  | nil => exact fun _ _ h => h
  | cons b m ih => exact ih.comp (crcByte_injective b)

/-- A changed byte changes the checksum (42_validate.md R171). -/
theorem crc16_ne_of_byte_ne {b b' : Byte} (h : b ≠ b') (initial : Half) (front back : List Byte) :
    crc16 initial (front ++ b :: back) ≠ crc16 initial (front ++ b' :: back) := by
  rw [crc16_append, crc16_append, crc16_cons, crc16_cons]
  exact fun heq => h (crcByte_injective_byte _ (crc16_injective back heq))

/-! ### The order of the trials -/

/-- The place of the combination `(r, v)` among the trials (42_validate.md R167). -/
def trialNumber (rv : Bool × Bool) : Nat := 2 * rv.1.toNat + rv.2.toNat

theorem mem_trials (rv : Bool × Bool) : rv ∈ trials := by
  revert rv
  decide

theorem trials_sorted : trials.Pairwise fun a b => trialNumber a < trialNumber b := by decide

/-- The trials before one are those with a smaller number. -/
theorem mem_before_iff {before after : List (Bool × Bool)} {a b : Bool × Bool}
    (h : trials = before ++ b :: after) : a ∈ before ↔ trialNumber a < trialNumber b := by
  have hsorted := trials_sorted
  rw [h, List.pairwise_append, List.pairwise_cons] at hsorted
  obtain ⟨-, ⟨hafter, -⟩, hbefore⟩ := hsorted
  refine ⟨fun ha => hbefore a ha b List.mem_cons_self, fun hlt => ?_⟩
  have hmem := mem_trials a
  rw [h, List.mem_append, List.mem_cons] at hmem
  obtain ha | rfl | ha := hmem
  · exact ha
  · exact absurd hlt (Nat.lt_irrefl _)
  · exact absurd hlt (hafter a ha).not_gt

/-- The first match is the match with no match before it (42_validate.md R167). -/
theorem firstMatch?_eq_some_iff {frame : List Byte} {r v : Bool} :
    firstMatch? frame = some (r, v) ↔
      matchesTrailer (candidate r frame) v = true ∧
        ∀ r' v', trialNumber (r', v') < trialNumber (r, v) →
          ¬ matchesTrailer (candidate r' frame) v' = true := by
  rw [firstMatch?, List.find?_eq_some_iff_append]
  constructor
  · rintro ⟨hmatch, before, after, hsplit, hno⟩
    refine ⟨hmatch, fun r' v' hlt => ?_⟩
    simpa using hno _ ((mem_before_iff hsplit).2 hlt)
  · rintro ⟨hmatch, hno⟩
    obtain ⟨before, after, hsplit⟩ := List.append_of_mem (mem_trials (r, v))
    refine ⟨hmatch, before, after, hsplit, fun rv hrv => ?_⟩
    simpa using hno rv.1 rv.2 ((mem_before_iff hsplit).1 hrv)

theorem firstMatch?_eq_none {frame : List Byte}
    (h : ∀ r v, ¬ matchesTrailer (candidate r frame) v = true) : firstMatch? frame = none :=
  List.find?_eq_none.2 fun rv _ => h rv.1 rv.2

/-! ### The judgement -/

section Judge

variable {frame : List Byte}

theorem judge_of_short (h : frame.length < 3) :
    judge frame = { vres := .tooShort, vrev := false, vinit := false, blen := 0 } :=
  if_pos h

theorem judge_of_firstMatch {r v : Bool} (hlen : 3 ≤ frame.length) (h : firstMatch? frame = some (r, v)) :
    judge frame = { vres := .ok, vrev := r, vinit := v, blen := BitVec.ofNat 16 (frame.length - 2) } := by
  rw [judge, if_neg (show ¬ frame.length < minFrameBytes from hlen.not_gt), h]
  rfl

theorem judge_of_no_match (hlen : 3 ≤ frame.length) (h : firstMatch? frame = none) :
    judge frame = { vres := .mismatch, vrev := false, vinit := false, blen := 0 } := by
  rw [judge, if_neg (show ¬ frame.length < minFrameBytes from hlen.not_gt), h]

/-- An OK reports the first match. -/
theorem firstMatch?_of_judge_ok (h : (judge frame).vres = .ok) :
    firstMatch? frame = some ((judge frame).vrev, (judge frame).vinit) := by
  obtain ⟨-, e⟩ | ⟨-, r, v, hmatch, e⟩ | ⟨-, -, e⟩ := judge_cases frame
  · cases (congrArg Verdict.vres e).symm.trans h
  · rw [hmatch, e]
  · cases (congrArg Verdict.vres e).symm.trans h

/-- An OK with `(0, 0)` says that the checksum of the body as parsed is the trailer (42_validate.md R165). -/
theorem crc16_eq_trailer_of_judge {body : List Byte} {hi lo : Byte} (hframe : frame = body ++ [hi, lo])
    (hvres : (judge frame).vres = .ok) (hvrev : (judge frame).vrev = false)
    (hvinit : (judge frame).vinit = false) : crc16 0x0000 body = hi ++ lo := by
  obtain ⟨hmatch, -⟩ := firstMatch?_eq_some_iff.1 (firstMatch?_of_judge_ok hvres)
  rw [hvrev, hvinit, hframe, matchesTrailer_candidate] at hmatch
  exact (hmatch.trans (congrArg (crc16 _) (List.map_id body))).symm

/-- On a frame of palindromes the reversed candidate matches only after the parsed one has
(42_validate.md R169). -/
theorem judge_vrev_of_palindromes (h : ∀ b ∈ frame, rev8 b = b) : (judge frame).vrev = false := by
  by_cases hok : (judge frame).vres = .ok
  · obtain ⟨hmatch, hno⟩ := firstMatch?_eq_some_iff.1 (firstMatch?_of_judge_ok hok)
    rw [candidate_of_palindromes h] at hmatch
    by_contra hrev
    rw [Bool.not_eq_false] at hrev
    refine hno false (judge frame).vinit ?_ ?_
    · simp [trialNumber, hrev]
    · rwa [candidate_of_palindromes h]
  · exact (judge_of_ne_ok hok).1

end Judge

/-! ### VALIDATE -/

/-- The number of two fields put side by side (00_scope.md R11). -/
theorem toNat_append_eq_add {m n : Nat} (x : BitVec m) (y : BitVec n) :
    (x ++ y).toNat = x.toNat * 2 ^ n + y.toNat := by
  rw [BitVec.toNat_append, ← Nat.shiftLeft_add_eq_or_of_lt y.isLt, Nat.shiftLeft_eq]

/-- The DATA of VALIDATE as a number (42_validate.md R166). -/
theorem validateData_toNat (s : State) : (validateData s).toNat =
    s.vinit.toNat * 2 ^ 19 + s.vrev.toNat * 2 ^ 18 + s.vres.code.toNat * 2 ^ 16 + s.blen.toNat := by
  show (0#4 ++ (BitVec.ofBool s.vinit ++ (BitVec.ofBool s.vrev ++ (s.vres.code ++ s.blen))) :
    BitVec (4 + (1 + (1 + (2 + 16))))).toNat = _
  simp only [toNat_append_eq_add, BitVec.toNat_ofBool, BitVec.toNat_zero]
  omega

/-- VALIDATE leaves its judgement of FB in the validator's registers and returns all four
(42_validate.md R166). -/
theorem exec_validate_of_judge {s : State} {a : VRes} {r v : Bool} {n : Half}
    (h : judge s.fb = { vres := a, vrev := r, vinit := v, blen := n }) :
    exec .validate s = .next
      { s with
        vres := a, vrev := r, vinit := v, blen := n
        rsps := s.rsps ++
          [BitVec.ofNat 32 (v.toNat * 2 ^ 19 + r.toNat * 2 ^ 18 + a.code.toNat * 2 ^ 16 + n.toNat)] } := by
  have hvalidated : validated s = s.setVerdict a r v n := by rw [validated, h]
  rw [exec_validate, execValidate_eq, hvalidated, complete_eq, okWord_eq, validateData_toNat]
  rfl

theorem eq_of_exec_validate {s t : State} (h : exec .validate s = .next t) :
    t = (validated s).respond (okWord (validateData (validated s))) :=
  Host.Outcome.next.inj (h.symm.trans (execValidate_eq s))

/-- The judgement reads FB only, which VALIDATE leaves as it is (42_validate.md R166). -/
theorem validated_respond_validated (s : State) (rw : Word) :
    validated ((validated s).respond rw) = (validated s).respond rw := rfl

/-! ### RDBODY -/

/-- RDBODY is refused without a validated body, and beyond it (42_validate.md R170). -/
theorem exec_rdbody_of_no_byte {s : State} {h : Half} (hno : s.vres ≠ .ok ∨ s.blen.toNat ≤ h.toNat) :
    exec (.rdbody h) s = .next { s with err := s.err ||| 0b010, rsps := s.rsps ++ [0xA0000000] } := by
  have hnone : bodyOperand? s h = none := by
    unfold bodyOperand?
    by_cases hok : s.vres = .ok
    · rw [if_neg (not_not.2 hok), if_pos (BitVec.le_def.2 (hno.resolve_left (not_not.2 hok)))]
    · rw [if_pos hok]
  rw [exec_rdbody, execRdbody, hnone, ← faultWord_operand]
  rfl

/-- Within the body RDBODY returns the byte as the candidate that matched shows it (42_validate.md R170). -/
theorem exec_rdbody_of_byte {s : State} {h : Half} {b : Byte} (hok : s.vres = .ok)
    (hlt : h.toNat < s.blen.toNat) (hb : s.frameAt h.toNat = some b) :
    exec (.rdbody h) s =
      .next { s with rsps := s.rsps ++ [BitVec.ofNat 32 (candidateByte s.vrev b).toNat] } := by
  have hsome : bodyOperand? s h = some (byteData (candidateByte s.vrev b)) := by
    rw [bodyOperand?, if_neg (not_not.2 hok), if_neg (BitVec.not_le.2 hlt), hb]
    rfl
  rw [exec_rdbody, execRdbody, hsome, ← okWord_byteData]
  rfl

/-! ### The obligations -/

/-- Settles O32: the judgement of a short frame, of a frame with a first match and of one without. -/
theorem validateReportsTheFirstMatch : Obligations.ValidateReportsTheFirstMatch := by
  refine ⟨rfl, fun s hinv => ⟨fun hshort => exec_validate_of_judge (judge_of_short hshort),
    fun body hi lo hbody hfb => ?_, fun hlen => ?_⟩⟩
  · intro view fits
    have hfits (r v : Bool) : fits r v ↔ matchesTrailer (candidate r s.fb) v = true := by
      rw [hfb, matchesTrailer_candidate]
      exact eq_comm
    have hlen : 3 ≤ s.fcnt := by
      have := List.length_pos_iff.2 hbody
      rw [State.fcnt, hfb, List.length_append, List.length_cons, List.length_singleton]
      omega
    simp only [hfits]
    refine ⟨fun r v hmatch hno => ?_, fun hno => ?_⟩
    · have hblen : (BitVec.ofNat 16 (s.fcnt - 2)).toNat = s.fcnt - 2 := by
        obtain ⟨-, -, ⟨hfcnt, -⟩, -⟩ := hinv
        have := s.cfg.fdepth.isLt
        exact Nat.mod_eq_of_lt (by omega)
      have hjudge := judge_of_firstMatch hlen (firstMatch?_eq_some_iff.2 ⟨hmatch, hno⟩)
      rw [exec_validate_of_judge hjudge, ← State.fcnt, hblen]
      rfl
    · exact exec_validate_of_judge (judge_of_no_match hlen (firstMatch?_eq_none hno))
  · obtain ⟨body, hi, lo, hfb⟩ := exists_body_trailer (m := s.fb) (le_trans (by decide) hlen)
    refine ⟨body, hi, lo, ?_, hfb⟩
    rintro rfl
    rw [State.fcnt, hfb] at hlen
    exact absurd hlen (Nat.lt_irrefl 2)

/-- Settles O33: VREV is that of the judgement. -/
theorem palindromesMatchAsParsed : Obligations.PalindromesMatchAsParsed :=
  fun s h => ⟨_, execValidate_eq s, judge_vrev_of_palindromes (frame := s.fb) h⟩

/-- Settles O34: the second VALIDATE finds the frame and the verdict of the first. -/
theorem validateMayBeRepeated : Obligations.ValidateMayBeRepeated := by
  intro s
  refine ⟨_, okWord (validateData (validated s)), execValidate_eq s, rfl, ?_⟩
  rw [exec_validate, execValidate_eq, validated_respond_validated]
  rfl

/-- Settles O35: an OK with `(0, 0)` on both frames would give both bodies one trailer, but they differ in
one byte and so in their checksums. -/
theorem oneCorruptedBodyBitBreaksTheMatch : Obligations.OneCorruptedBodyBitBreaksTheMatch := by
  intro s t front back b hi lo k hk hfb ht hvres hvrev hvinit
  have hframe (c : Byte) : front ++ c :: (back ++ [hi, lo]) = (front ++ c :: back) ++ [hi, lo] := by simp
  have hflip : b ≠ b ^^^ 1#8 <<< k := by
    intro h
    have hbit := congrArg (·.getLsbD k) h
    simp [hk] at hbit
  obtain rfl := eq_of_exec_validate ht
  have hbody : crc16 0x0000 (front ++ b :: back) = hi ++ lo :=
    crc16_eq_trailer_of_judge (hfb.trans (hframe b)) hvres hvrev hvinit
  refine ⟨_, execValidate_eq _, ?_⟩
  rintro ⟨hvres', hvrev', hvinit'⟩
  have hbody' : crc16 0x0000 (front ++ (b ^^^ 1#8 <<< k) :: back) = hi ++ lo :=
    crc16_eq_trailer_of_judge (hframe _) hvres' hvrev' hvinit'
  exact crc16_ne_of_byte_ne hflip 0x0000 front back (hbody.trans hbody'.symm)

/-- Settles O36: the refused and the completing RDBODY; within the invariant the body lies within FB. -/
theorem rdbodyReadsTheBodyByte : Obligations.RdbodyReadsTheBodyByte := by
  refine ⟨fun h => encode_eq_of_arg (i := .rdbody h) (BitVec.toNat_setWidth_of_le (by decide)),
    fun s h hinv => ⟨exec_rdbody_of_no_byte, fun hok hlt => ?_⟩⟩
  obtain ⟨-, -, -, hbody, -⟩ := hinv
  obtain ⟨-, hblen, -⟩ := hbody hok
  obtain ⟨b, hb⟩ := exists_frameAt_of_lt (s := s) (j := h.toNat) (by omega)
  exact ⟨b, hb, exec_rdbody_of_byte hok hlt hb⟩

/-- Settles O29: the bits one by one, and the palindromes among the 256 bytes, computed. -/
theorem rev8ReversesTheBits : Obligations.Rev8ReversesTheBits := by
  refine fun b => ⟨fun k hk => rev8_getLsbD b hk, rev8_rev8 b, ?_⟩
  revert b
  decide +kernel

/-- Settles O30: the last byte enters the checksum of those before it, and the eight shifts are the
model's. -/
theorem crcShiftsEachByteThrough : Obligations.CrcShiftsEachByteThrough := by
  intro start m b shift
  have hshift : crcShift = shift := funext crcShift_eq
  refine ⟨crc16_nil start, ?_⟩
  rw [crc16_append, crc16_cons, crc16_nil, crcByte, hshift]
  rfl

/-- Settles O31: the table, computed. -/
theorem crcTableValues : Obligations.CrcTableValues := by
  unfold Obligations.CrcTableValues
  decide +kernel

end Sys2Proof.Machine
end

section
/-! The control commands NOP, INIT, RDREG and CLRERR (43_control.md R191 to R196), from their words to the
states and responses they leave, and the twelve registers as numbers (10_state.md R38). -/

namespace Sys2Proof.Machine

/-! ### Responses as numbers -/

/-- The response that returns nothing (43_control.md R191, R192). -/
@[simp] theorem okWord_zero : okWord 0 = 0x00000000 := by decide

/-- The response that returns a field of at most 24 bits, zero-extended (30_encoding.md R93). -/
theorem okWord_setWidth {n : Nat} (x : BitVec n) (hn : n ≤ 24) :
    okWord (x.setWidth 24) = BitVec.ofNat 32 x.toNat := by
  rw [okWord_eq, BitVec.toNat_setWidth_of_le hn]

/-- A read whose operand names a value returns its number. -/
theorem readOperand_some (d : Data) (s : State) :
    readOperand (some d) s = .next { s with rsps := s.rsps ++ [BitVec.ofNat 32 d.toNat] } := by
  rw [← okWord_eq]
  rfl

/-- A read whose operand names nothing is refused with OPERAND (20_memory.md R68). -/
theorem readOperand_none (s : State) :
    readOperand none s = .next { s with err := s.err ||| 0b010, rsps := s.rsps ++ [0xA0000000] } := by
  rw [← faultWord_operand]
  rfl

/-! ### ERR under CLRERR -/

/-- A bit of ERR survives exactly where the mask has a 0 (43_control.md R196). -/
theorem errClear_getLsbD (err m : BitVec 3) {k : Nat} (hk : k < 3) :
    (errClear err m).getLsbD k = (err.getLsbD k && !m.getLsbD k) := by
  rw [errClear, BitVec.getLsbD_and, BitVec.getLsbD_not, decide_eq_true hk, Bool.true_and]

/-! ### The registers by number -/

/-- The twelve registers in the order of their numbers (10_state.md R38). -/
def registers (s : State) : List Data :=
  [idWord, s.lenReg, bitData s.pol, s.maxb.setWidth 24, s.pos, s.fcntReg.setWidth 24, xstat s.halt,
    vstat s.vres s.vrev s.vinit, s.blen.setWidth 24, s.err.setWidth 24, s.cfg.ldepth,
    s.cfg.fdepth.setWidth 24]

/-- RDREG's operand names the entry of that number, and nothing from 12 on. -/
theorem registerOperand?_eq_registers (s : State) (r : BitVec 4) :
    registerOperand? s r = (registers s)[r.toNat]? := by
  have hr : r.toNat < 16 := r.isLt
  unfold registerOperand?
  generalize r.toNat = n at hr
  interval_cases n <;> rfl

/-- LEN's number, where it fits the register (10_state.md R21). -/
theorem lenReg_toNat {s : State} (h : s.len < 2 ^ 24) : s.lenReg.toNat = s.len := by
  rw [State.lenReg, BitVec.toNat_ofNat, Nat.mod_eq_of_lt h]

/-- FCNT's number, where it fits the register (10_state.md R25). -/
theorem fcntReg_toNat {s : State} (h : s.fcnt < 2 ^ 16) : s.fcntReg.toNat = s.fcnt := by
  rw [State.fcntReg, BitVec.toNat_ofNat, Nat.mod_eq_of_lt h]

/-- XSTAT is the code of HALT (10_state.md R38). -/
theorem xstat_toNat (halt : Halt) : (xstat halt).toNat = halt.code.toNat :=
  BitVec.toNat_setWidth_of_le (by decide)

/-- VSTAT is the code of VRES with VREV in bit 2 and VINIT in bit 3 (10_state.md R38). -/
theorem vstat_toNat (vres : VRes) (vrev vinit : Bool) :
    (vstat vres vrev vinit).toNat = vres.code.toNat + 4 * vrev.toNat + 8 * vinit.toNat := by
  show (0#20 ++ (BitVec.ofBool vinit ++ (BitVec.ofBool vrev ++ vres.code)) :
    BitVec (20 + (1 + (1 + 2)))).toNat = _
  simp only [toNat_append_eq_add, BitVec.toNat_ofBool, BitVec.toNat_zero]
  omega

/-- The numbers the twelve registers show, where the two lengths fit their registers. -/
theorem registers_map_toNat {s : State} (hlen : s.len < 2 ^ 24) (hfcnt : s.fcnt < 2 ^ 16) :
    (registers s).map BitVec.toNat =
      [0x4C5301, s.len, s.pol.toNat, s.maxb.toNat, s.pos.toNat, s.fcnt, s.halt.code.toNat,
        s.vres.code.toNat + 4 * s.vrev.toNat + 8 * s.vinit.toNat, s.blen.toNat, s.err.toNat,
        s.cfg.ldepth.toNat, s.cfg.fdepth.toNat] := by
  have hhalf (h : Half) : (h.setWidth 24).toNat = h.toNat := BitVec.toNat_setWidth_of_le (by decide)
  have herr : (s.err.setWidth 24).toNat = s.err.toNat := BitVec.toNat_setWidth_of_le (by decide)
  have hid : idWord.toNat = 0x4C5301 := rfl
  simp only [registers, List.map_cons, List.map_nil, hid, lenReg_toNat hlen, bitData_toNat, hhalf,
    fcntReg_toNat hfcnt, xstat_toNat, vstat_toNat, herr]

/-- Within the invariant both lengths fit their registers (10_state.md R23, R29). -/
theorem State.Inv.lengths_fit {s : State} (h : s.Inv) : s.len < 2 ^ 24 ∧ s.fcnt < 2 ^ 16 := by
  obtain ⟨-, hbdr, ⟨hfb, -⟩, -⟩ := h
  exact ⟨hbdr.trans_lt s.cfg.ldepth.isLt, hfb.trans_lt s.cfg.fdepth.isLt⟩

/-! ### The obligations -/

/-- Settles O17: the numbers of the statement are those of the twelve registers, and RDREG returns the one
its operand names or is refused. -/
theorem rdregReadsTheRegister : Obligations.RdregReadsTheRegister := by
  refine ⟨fun r => encode_eq_of_arg (i := .rdreg r) (BitVec.toNat_setWidth_of_le (by decide)), ?_⟩
  intro s r hinv halt vres
  have hhalt : s.halt.code.toNat = halt := by cases h : s.halt <;> simp [halt, h, Halt.code]
  have hvres : s.vres.code.toNat = vres := by cases h : s.vres <;> simp [vres, h, VRes.code]
  obtain ⟨hlen, hfcnt⟩ := hinv.lengths_fit
  rw [← hhalt, ← hvres, ← registers_map_toNat hlen hfcnt, List.getElem?_map,
    ← registerOperand?_eq_registers, exec_rdreg, execRdreg]
  cases registerOperand? s r with
  | some d => exact readOperand_some d s
  | none => exact readOperand_none s

/-- Settles O18: the new ERR bit by bit, and the response that returns it. -/
theorem clrerrClearsTheMaskedBits : Obligations.ClrerrClearsTheMaskedBits := by
  refine ⟨fun m => encode_eq_of_arg (i := .clrerr m) (BitVec.toNat_setWidth_of_le (by decide)),
    fun s m => ⟨_, rfl, rfl, fun k hk => errClear_getLsbD s.err m hk, ?_⟩⟩
  exact congrArg (fun rw => s.rsps ++ [rw]) (okWord_setWidth (errClear s.err m) (by decide))

/-- Settles O15: NOP completes with DATA = 0 on the state as it is. -/
theorem nopChangesNothing : Obligations.NopChangesNothing :=
  ⟨encode_eq_of_arg (i := .nop) rfl, fun s => by rw [exec_nop, execNop, complete_eq, okWord_zero]⟩

/-- Settles O16: INIT completes with DATA = 0 on the cleared state. -/
theorem initWritesEveryRegister : Obligations.InitWritesEveryRegister := by
  refine ⟨encode_eq_of_arg (i := .init) rfl, fun s => ?_⟩
  rw [exec_init, execInit, complete_eq, okWord_zero]
  rfl

end Sys2Proof.Machine
end

section
/-! The command faults (60_exceptions.md R211 to R217): which word raises which fault, what a refused word
leaves, and that data raise none. -/

namespace Sys2Proof.Machine

/-! ### Fault words -/

/-- FAULT is bit 31 of a response and FCODE its bits 30:28 (30_encoding.md R93). -/
theorem faultWord_toNat (f : CmdFault) : (faultWord f).toNat = 2 ^ 31 + f.code.toNat * 2 ^ 28 := by
  cases f <;> decide

theorem CmdFault.code_injective : Function.Injective CmdFault.code := by
  intro f g h
  revert h
  cases f <;> cases g <;> decide

/-- The response names the fault (60_exceptions.md R211). -/
theorem faultWord_injective : Function.Injective faultWord := by
  intro f g h
  have hnat := congrArg BitVec.toNat h
  rw [faultWord_toNat, faultWord_toNat] at hnat
  exact CmdFault.code_injective (BitVec.eq_of_toNat_eq (by omega))

/-- A response with FAULT = 0 has no bit above DATA (30_encoding.md R93). -/
theorem okWord_toNat_lt (d : Data) : (okWord d).toNat < 2 ^ 24 :=
  (okWord_toNat d).trans_lt d.isLt

/-! ### The fault table (60_exceptions.md R211) -/

/-- The fault R211 lists for a command in a state, if there is one. -/
def faultOf? (s : State) : Instr → Option CmdFault
  | .capt _ => if s.len = s.cfg.ldepth.toNat then some .ovf else none
  | .setmaxb h => if s.cfg.fdepth.toNat < h.toNat then some .operand else none
  | .rdbit idx => if s.len ≤ idx.toNat then some .operand else none
  | .rdframe h => if s.fcnt ≤ h.toNat then some .operand else none
  | .rdbody h => if s.vres ≠ .ok ∨ s.blen.toNat ≤ h.toNat then some .operand else none
  | .rdreg r => if 12 ≤ r.toNat then some .operand else none
  | _ => none

/-- The fault R211 lists for a word: ILLEGAL for an illegal one, else its command's. -/
def wordFault? (s : State) (w : Word) : Option CmdFault :=
  match decode w with
  | .command i => faultOf? s i
  | .illegal _ => some .illegal

/-- `EndsWith s fault? r`: from `s`, the result `r` is the fault, or where there is none a completion that
has returned nothing before its response (00_scope.md R14, R16). -/
inductive EndsWith (s : State) : Option CmdFault → Result → Prop where
  | refused (f : CmdFault) : EndsWith s (some f) (raise f s)
  | completed (d : Data) {u : State} (hrsps : u.rsps = s.rsps) : EndsWith s none (complete d u)

section FaultTable

variable {s : State}

/-- A command that is refused under one condition. -/
theorem endsWith_ite {P : Prop} [Decidable P] {f : CmdFault} {r : Result} (hpos : P → r = raise f s)
    (hneg : ¬ P → ∃ d u, u.rsps = s.rsps ∧ r = complete d u) :
    EndsWith s (if P then some f else none) r := by
  by_cases h : P
  · rw [if_pos h, hpos h]
    exact .refused f
  · obtain ⟨d, u, hrsps, rfl⟩ := hneg h
    rw [if_neg h]
    exact .completed d hrsps

/-- A read command is refused exactly where its operand names no value (20_memory.md R68). -/
theorem endsWith_readOperand {P : Prop} [Decidable P] {v : Option Data} (h : v = none ↔ P) :
    EndsWith s (if P then some .operand else none) (readOperand v s) := by
  refine endsWith_ite (fun hP => ?_) (fun hP => ?_)
  · rw [h.2 hP]
    rfl
  · obtain ⟨d, rfl⟩ := Option.ne_none_iff_exists'.1 (mt h.1 hP)
    exact ⟨d, s, rfl, rfl⟩

theorem bitOperand?_eq_none_iff (idx : Data) : bitOperand? s idx = none ↔ s.len ≤ idx.toNat := by
  rw [bitOperand?, Option.map_eq_none_iff, bit?_eq_none_iff]

theorem frameOperand?_eq_none_iff (h : Half) : frameOperand? s h = none ↔ s.fcnt ≤ h.toNat := by
  rw [frameOperand?, Option.map_eq_none_iff, frameAt_eq_none_iff]

/-- Within the invariant a body holds a value at every index below BLEN (10_state.md R35). -/
theorem bodyOperand?_eq_none_iff (hinv : s.CcvInv) (h : Half) :
    bodyOperand? s h = none ↔ s.vres ≠ .ok ∨ s.blen.toNat ≤ h.toNat := by
  obtain ⟨hbody, -, -⟩ := hinv
  unfold bodyOperand?
  by_cases hok : s.vres = .ok
  · obtain ⟨-, hblen, -⟩ := hbody hok
    simp only [hok, ne_eq, not_true_eq_false, if_false, false_or, BitVec.le_def, ite_eq_left_iff,
      Option.map_eq_none_iff, frameAt_eq_none_iff]
    omega
  · simp [hok]

theorem registerOperand?_eq_none_iff (r : BitVec 4) : registerOperand? s r = none ↔ 12 ≤ r.toNat := by
  rw [registerOperand?_eq_registers, List.getElem?_eq_none_iff]
  rfl

/-- Every command ends as R211 lists it (60_exceptions.md R211). -/
theorem endsWith_exec (hinv : s.CcvInv) (i : Instr) : EndsWith s (faultOf? s i) (exec i s) := by
  cases i with
  | nop => exact .completed _ rfl
  | init => exact .completed _ s.clear_rsps
  | capt b =>
    exact endsWith_ite (fun hfull => if_pos hfull) fun hroom => ⟨_, s.appendLabel b, rfl, if_neg hroom⟩
  | setpol b => exact .completed _ (s.setPol_rsps b)
  | setmaxb h =>
    exact endsWith_ite (fun habove => if_pos habove) fun hle => ⟨_, s.setMaxb h, rfl, if_neg hle⟩
  | extract idx => exact .completed _ (u := extracted idx s) rfl
  | validate => exact .completed _ (u := validated s) rfl
  | rdbit idx => exact endsWith_readOperand (bitOperand?_eq_none_iff idx)
  | rdframe h => exact endsWith_readOperand (frameOperand?_eq_none_iff h)
  | rdbody h => exact endsWith_readOperand (bodyOperand?_eq_none_iff hinv h)
  | rdreg r => exact endsWith_readOperand (registerOperand?_eq_none_iff r)
  | clrerr m => exact .completed _ (s.setErr_rsps _)

/-- So does every accepted word. -/
theorem endsWith_acceptWord (hinv : s.CcvInv) (w : Word) :
    EndsWith s (wordFault? s w) (acceptWord w s) := by
  unfold wordFault? acceptWord
  cases decode w with
  | command i => exact endsWith_exec hinv i
  | illegal why => exact .refused .illegal

/-- The response tells how a result ended. -/
theorem EndsWith.response_eq_faultWord_iff {fault? : Option CmdFault} {t : State} {r : Result}
    (h : EndsWith s fault? r) (hr : r = .next t) (f : CmdFault) :
    t.rsps = s.rsps ++ [faultWord f] ↔ fault? = some f := by
  cases h with
  | refused g =>
    cases hr
    simp [faultWord_injective.eq_iff]
  | completed d hrsps =>
    cases hr
    simp [hrsps, okWord_ne_faultWord]

end FaultTable

/-- A word is answered with the fault R211 lists for it and with no other. -/
theorem step_response_eq_faultWord_iff {s t : State} {w : Word} {rest : List HostEvent} (hinv : s.CcvInv)
    (hcmds : s.cmds = .command w :: rest) (h : step s = .next t) (f : CmdFault) :
    t.rsps = s.rsps ++ [faultWord f] ↔ wordFault? s w = some f :=
  (endsWith_acceptWord (s := s.setCmds rest) hinv w).response_eq_faultWord_iff
    ((step_of_cons hcmds).symm.trans h) f

theorem faultOf?_ne_illegal (s : State) (i : Instr) : faultOf? s i ≠ some .illegal := by
  cases i <;> simp [faultOf?]

theorem wordFault?_eq_illegal_iff (s : State) (w : Word) :
    wordFault? s w = some .illegal ↔ IllegalWord w := by
  rw [← exists_illegal_iff, wordFault?]
  cases decode w with
  | command i => simp [faultOf?_ne_illegal]
  | illegal why => simp

/-! ### What a refused word leaves -/

/-- A step answered with FAULT = 1 raised a fault on the state as it was (60_exceptions.md R212). -/
theorem exists_raised_of_response {s t : State} {w rw : Word} {rest : List HostEvent}
    (hcmds : s.cmds = .command w :: rest) (h : step s = .next t) (hrsps : t.rsps = s.rsps ++ [rw])
    (hfault : 2 ^ 24 ≤ rw.toNat) :
    ∃ f, rw = faultWord f ∧ t = ((s.setCmds rest).recordFault f).respond (faultWord f) := by
  have hnext : acceptWord w (s.setCmds rest) = .next t := (step_of_cons hcmds).symm.trans h
  obtain ⟨d, u, -, hu, e⟩ | ⟨f, e⟩ := completesOrRaises_acceptWord w (s.setCmds rest) <;>
    cases hnext.symm.trans e
  · obtain rfl : okWord d = rw := by simpa [hu] using hrsps
    exact absurd (okWord_toNat_lt d) hfault.not_gt
  · obtain rfl : faultWord f = rw := by simpa using hrsps
    exact ⟨f, rfl, rfl⟩

/-- The number of a response with FAULT = 1 and a three-bit FCODE (30_encoding.md R93). -/
theorem faultNumber_toNat {fcode : Nat} (h : fcode < 8) :
    (BitVec.ofNat 32 (2 ^ 31 + fcode * 2 ^ 28)).toNat = 2 ^ 31 + fcode * 2 ^ 28 :=
  (BitVec.toNat_ofNat _ _).trans (Nat.mod_eq_of_lt (by omega))

/-- A NOP in the place of a word leaves the state and returns 0 (43_control.md R191). -/
theorem step_nop {s : State} {rest : List HostEvent} (hcmds : s.cmds = .command 0x00000000 :: rest) :
    step s = .next ((s.setCmds rest).respond 0x00000000) := by
  obtain ⟨hword, hnop⟩ := nopChangesNothing
  exact (stepRunsTheDecodedCommand s _ rest .nop hcmds (hword ▸ decode_encode .nop)).trans (hnop _)

/-! ### The obligations -/

/-- Settles O38: the table's condition for each fault, read off the word's decoding. -/
theorem faultsAreRaisedWhereListed : Obligations.FaultsAreRaisedWhereListed := by
  intro s t w rest hinv hcmds h
  obtain ⟨-, -, -, hccv⟩ := hinv
  have hfault := step_response_eq_faultWord_iff hccv hcmds h
  rw [← faultWord_illegal, ← faultWord_operand, ← faultWord_ovf, hfault, hfault, hfault]
  refine ⟨wordFault?_eq_illegal_iff s w, ?_, ?_⟩
  all_goals
    unfold wordFault?
    cases decode w with
    | illegal why => simp
    | command i => cases i <;> simp [faultOf?, imp_iff_not_or]

/-- Settles O39: the response names the fault raised, and a fault writes its own ERR bit. -/
theorem faultWritesOneErrBitOnly : Obligations.FaultWritesOneErrBitOnly := by
  intro s t w rest fcode hcmds h hle hge hrsps
  have hnat := faultNumber_toNat (fcode := fcode) (by omega)
  obtain ⟨f, hf, rfl⟩ := exists_raised_of_response hcmds h hrsps (by omega)
  obtain rfl : fcode = f.code.toNat := by
    rw [hf, faultWord_toNat] at hnat
    omega
  rfl

/-- Settles O40: a fault leaves the state as it was but for ERR, and so does a NOP. -/
theorem refusedWordActsAsNopButForErr : Obligations.RefusedWordActsAsNopButForErr := by
  intro s t n w rest fcode hcmds h hrsps hlt hnop
  have hnat := faultNumber_toNat hlt
  obtain ⟨f, -, rfl⟩ := exists_raised_of_response hcmds h hrsps (by omega)
  cases (step_nop (s := s.setCmds (.command 0x00000000 :: rest)) rfl).symm.trans hnop
  rfl

/-- Settles O42: both commands complete, whatever the stores hold, and neither writes ERR. -/
theorem dataNeverFaults : Obligations.DataNeverFaults := by
  rintro s i (rfl | ⟨idx, rfl⟩)
  · exact ⟨_, _, execValidate_eq s, rfl, okWord_toNat_lt _, rfl⟩
  · exact ⟨_, _, exec_extract_eq idx s, rfl, okWord_toNat_lt _, rfl⟩

/-- Settles O10: with nothing on the port the step is the idle one. -/
theorem idleKeepsAllState : Obligations.IdleKeepsAllState := fun _ => step_of_nil

end Sys2Proof.Machine
end

section
/-! The frame locator (60_exceptions.md R228, R229): what its scan keeps and what it drops. -/

namespace Sys2Proof.Machine

/-! ### Runs of ones -/

/-- The `n` bits just before index `i` are ones. -/
def OnesBefore (bits : List Bool) (i n : Nat) : Prop := n ≤ i ∧ ∀ j < i, i ≤ j + n → bits[j]? = some true

/-- A candidate of R228: the 0 at `i` ends a run of at least the threshold of ones. -/
def Closes (p : HostParams) (bits : List Bool) (i : Nat) : Prop :=
  bits[i]? = some false ∧ OnesBefore bits i p.preambleThreshold

section Runs

variable {bits : List Bool} {i n run : Nat}

theorem onesBefore_zero : OnesBefore bits i 0 := ⟨Nat.zero_le i, fun j hj hi => by omega⟩

/-- One more bit before the next index. -/
theorem onesBefore_succ_succ :
    OnesBefore bits (i + 1) (n + 1) ↔ bits[i]? = some true ∧ OnesBefore bits i n := by
  constructor
  · rintro ⟨hle, hones⟩
    exact ⟨hones i (by omega) (by omega), by omega, fun j hj hi => hones j (by omega) (by omega)⟩
  · rintro ⟨hi, hle, hones⟩
    refine ⟨by omega, fun j hj hn => ?_⟩
    obtain rfl | hlt : j = i ∨ j < i := by omega
    · exact hi
    · exact hones j hlt (by omega)

/-- A 1 lengthens the run before it. -/
theorem onesBefore_succ_of_true (hi : bits[i]? = some true)
    (hrun : ∀ n, OnesBefore bits i n ↔ n ≤ run) (n : Nat) :
    OnesBefore bits (i + 1) n ↔ n ≤ run + 1 := by
  cases n with
  | zero => simp [onesBefore_zero]
  | succ n => simp [onesBefore_succ_succ, hi, hrun]

/-- A 0 ends it. -/
theorem onesBefore_succ_of_false (hi : bits[i]? = some false) (n : Nat) :
    OnesBefore bits (i + 1) n ↔ n ≤ 0 := by
  cases n with
  | zero => simp [onesBefore_zero]
  | succ n => simp [onesBefore_succ_succ, hi]

end Runs

/-! ### The scan -/

/-- Two kept candidates are at least the distance apart (60_exceptions.md R229). -/
def Spaced (p : HostParams) (a b : Nat) : Prop := a < b ∧ a + p.dedupDistance ≤ b

/-- `c` is dropped for `a`: it stands closer than the distance behind it (60_exceptions.md R229). -/
def Shadows (p : HostParams) (a c : Nat) : Prop := a < c ∧ c < a + p.dedupDistance

/-- `out` is what R228's scan keeps of `bits` from index `i` on, `last` being the last one kept before. -/
structure Located (p : HostParams) (bits : List Bool) (i : Nat) (last : Option Nat) (out : List Nat) :
    Prop where
  sound : ∀ c ∈ out, Closes p bits c
  spaced : (last.toList ++ out).Pairwise (Spaced p)
  complete : ∀ c, i ≤ c → Closes p bits c → c ∉ out → ∃ a ∈ last.toList ++ out, Shadows p a c

section Scan

variable {p : HostParams} {bits : List Bool} {i run : Nat} {last : Option Nat} {out : List Nat}

/-- Behind the last bit there is nothing to keep. -/
theorem located_nil (h : bits.length ≤ i) : Located p bits i last [] where
  sound c hc := absurd hc List.not_mem_nil
  spaced := by cases last <;> simp
  complete c hc hcloses := by
    have hnone : bits[c]? = none := List.getElem?_eq_none (h.trans hc)
    cases hnone.symm.trans hcloses.1

/-- An index is passed over if it is no candidate, or one too close behind the last kept. -/
theorem Located.skip (h : Located p bits (i + 1) last out)
    (hi : Closes p bits i → ∃ l ∈ last, Shadows p l i) : Located p bits i last out where
  sound := h.sound
  spaced := h.spaced
  complete c hc hcloses hout := by
    obtain rfl | hlt : i = c ∨ i + 1 ≤ c := by omega
    · obtain ⟨l, hl, hshadows⟩ := hi hcloses
      exact ⟨l, List.mem_append_left _ (Option.mem_toList.2 hl), hshadows⟩
    · exact h.complete c hlt hcloses hout

/-- A candidate far enough behind the last kept one is kept. -/
theorem Located.keep (h : Located p bits (i + 1) (some i) out) (hi : Closes p bits i)
    (hlast : ∀ l ∈ last, Spaced p l i) : Located p bits i last (i :: out) where
  sound := List.forall_mem_cons.2 ⟨hi, h.sound⟩
  spaced := by
    have hspaced : (i :: out).Pairwise (Spaced p) := h.spaced
    cases last with
    | none => exact hspaced
    | some l =>
      obtain ⟨hlt, hle⟩ := hlast l rfl
      refine List.pairwise_cons.2 ⟨List.forall_mem_cons.2 ⟨⟨hlt, hle⟩, fun c hc => ?_⟩, hspaced⟩
      obtain ⟨hic, -⟩ := (List.pairwise_cons.1 hspaced).1 c hc
      exact ⟨hlt.trans hic, hle.trans hic.le⟩
  complete c hc hcloses hout := by
    obtain ⟨hne, hout⟩ := not_or.1 (mt List.mem_cons.2 hout)
    obtain ⟨a, ha, hshadows⟩ := h.complete c (by omega) hcloses hout
    exact ⟨a, List.mem_append_right _ ha, hshadows⟩

/-- The scan keeps what R228 and R229 say, whatever it has seen before. -/
theorem located_locateFrom {rest : List Bool} (hrest : bits.drop i = rest)
    (hrun : ∀ n, OnesBefore bits i n ↔ n ≤ run) (hlast : ∀ l ∈ last, l < i) :
    Located p bits i last (locateFrom p rest i run last) := by
  induction rest generalizing i run last with
  | nil => exact located_nil (List.drop_eq_nil_iff.1 hrest)
  | cons b rest ih =>
    have hi : bits[i]? = some b := by rw [← List.head?_drop, hrest, List.head?_cons]
    have hnext : bits.drop (i + 1) = rest := by rw [← List.tail_drop, hrest, List.tail_cons]
    have hlast' : ∀ l ∈ last, l < i + 1 := fun l hl => Nat.lt_succ_of_lt (hlast l hl)
    cases b with
    | true =>
      refine (ih hnext (onesBefore_succ_of_true hi hrun) hlast').skip fun hcloses => ?_
      cases hi.symm.trans hcloses.1
    | false =>
      have hcloses : Closes p bits i ↔ p.preambleThreshold ≤ run := by simp [Closes, hi, hrun]
      rw [locateFrom]
      split
      next hkeep =>
        obtain ⟨hlong, hfar⟩ := hkeep
        refine (ih hnext (onesBefore_succ_of_false hi) (by simp)).keep (hcloses.2 hlong) fun l hl => ?_
        have hlt := hlast l hl
        have hdist : p.dedupDistance ≤ i - l := by simpa using (Option.all_eq_true _ _).1 hfar l hl
        exact ⟨hlt, by omega⟩
      next hdrop =>
        refine (ih hnext (onesBefore_succ_of_false hi) hlast').skip fun hc => ?_
        cases last with
        | none => exact absurd ⟨hcloses.1 hc, rfl⟩ hdrop
        | some l =>
          have hlt := hlast l rfl
          have hnear : ¬ p.dedupDistance ≤ i - l := by simpa [hcloses.1 hc] using hdrop
          exact ⟨l, rfl, hlt, by omega⟩

end Scan

/-! ### The obligation -/

/-- Settles O47: the scan from index 0, with no run and no candidate before it. -/
theorem locatorFindsRunsAndDeduplicates : Obligations.LocatorFindsRunsAndDeduplicates := by
  intro p bits
  have hrun (n : Nat) : OnesBefore bits 0 n ↔ n ≤ 0 := ⟨And.left, fun h => ⟨h, fun j hj => by omega⟩⟩
  have hlocated : Located p bits 0 none (locate p bits) := located_locateFrom rfl hrun (by simp)
  exact ⟨hlocated.sound, hlocated.spaced, fun i => hlocated.complete i (Nat.zero_le i)⟩

end Sys2Proof.Machine
end

section
/-! The host's loops over RDBIT and RDBODY (60_exceptions.md R228, R230), and the wire format (R227): a unit's
length, and its text back through EXTRACT, VALIDATE and RDBODY. -/

namespace Sys2Proof.Machine

/-! ### Issuing a command -/

/-- The host's command runs at once, in front of what is lined up (60_exceptions.md R226). -/
theorem issue_of_exec {i : Instr} {s t : State} (h : exec i s = .next t) : issue i s = t := by
  have hstep : step (s.presentWord (encode i)) = .next t :=
    (stepRunsTheDecodedCommand _ _ s.cmds i rfl (decode_encode i)).trans h
  rw [issue, hstep]

theorem okWord_data (d : Data) : (okWord d).extractLsb' 0 24 = d := by
  apply BitVec.eq_of_toNat_eq
  rw [BitVec.extractLsb'_toNat, okWord_toNat, Nat.shiftRight_zero, Nat.mod_eq_of_lt d.isLt]

/-- The host takes DATA from the last response (30_encoding.md R93). -/
theorem lastData_respond (s : State) (d : Data) : lastData (s.respond (okWord d)) = d := by
  simp [lastData, okWord_data]

/-! ### Reading a sequence -/

/-- `s` with other responses returned. -/
def State.setRsps (rws : List Word) (s : State) : State := { s with rsps := rws }

theorem readAll_succ (read : Nat → Instr) (n : Nat) (s : State) :
    readAll read (n + 1) s =
      (issue (read n) (readAll read n s).1,
        (readAll read n s).2 ++ [lastData (issue (read n) (readAll read n s).1)]) := by
  simp [readAll, List.range_succ]

section ReadAll

variable {read : Nat → Instr} {data : List Data} {s : State}

/-- Reads that return `data` item by item, whatever was returned before, give the host its first `n` items
and change nothing but the responses. -/
theorem readAll_eq_take
    (hread : ∀ k d rws, data[k]? = some d →
      exec (read k) (s.setRsps rws) = .next ((s.setRsps rws).respond (okWord d)))
    {n : Nat} (hn : n ≤ data.length) : ∃ rws, readAll read n s = (s.setRsps rws, data.take n) := by
  induction n with
  | zero => exact ⟨s.rsps, rfl⟩
  | succ n ih =>
    obtain ⟨rws, hrws⟩ := ih (Nat.le_of_succ_le hn)
    have hitem : data[n]? = some data[n] := List.getElem?_eq_getElem hn
    have hissue := issue_of_exec (hread n data[n] rws hitem)
    refine ⟨rws ++ [okWord data[n]], ?_⟩
    rw [readAll_succ, hrws, hissue, lastData_respond, List.take_add_one, hitem]
    rfl

theorem readAll_eq
    (hread : ∀ k d rws, data[k]? = some d →
      exec (read k) (s.setRsps rws) = .next ((s.setRsps rws).respond (okWord d))) :
    ∃ rws, readAll read data.length s = (s.setRsps rws, data) := by
  simpa using readAll_eq_take hread le_rfl

end ReadAll

/-! ### The bits and the body -/

section ReadBack

variable {s : State}

/-- RDBIT below LEN returns the committed bit (40_capture.md R125). -/
theorem exec_rdbit_of_bit {idx : Data} {b : Bool} (h : s.bit? idx.toNat = some b) :
    exec (.rdbit idx) s = .next (s.respond (okWord (bitData b))) := by
  rw [exec_rdbit, execRdbit, bitOperand?, h]
  rfl

theorem bitData_getLsbD_zero (b : Bool) : (bitData b).getLsbD 0 = b := by cases b <;> rfl

theorem byteData_setWidth (b : Byte) : (byteData b).setWidth 8 = b := by
  rw [byteData, BitVec.setWidth_setWidth_of_le _ (by decide), BitVec.setWidth_eq]

/-- The host reads the committed bits (60_exceptions.md R228). -/
theorem readBits_eq (hlen : s.len < 2 ^ 24) : ∃ rws, readBits s = (s.setRsps rws, s.bits) := by
  have hread (k : Nat) (d : Data) (rws : List Word) (hd : (s.bits.map bitData)[k]? = some d) :
      exec (.rdbit (BitVec.ofNat 24 k)) (s.setRsps rws) = .next ((s.setRsps rws).respond (okWord d)) := by
    obtain ⟨b, hb, rfl⟩ := Option.map_eq_some_iff.1 (List.getElem?_map ▸ hd)
    obtain ⟨hk, -⟩ := List.getElem?_eq_some_iff.1 hb
    rw [s.bits_length] at hk
    refine exec_rdbit_of_bit (s := s.setRsps rws) ?_
    rwa [BitVec.toNat_ofNat, Nat.mod_eq_of_lt (hk.trans hlen)]
  obtain ⟨rws, hrws⟩ := readAll_eq hread
  rw [List.length_map, s.bits_length] at hrws
  have hback : (s.bits.map bitData).map (fun d => d.getLsbD 0) = s.bits :=
    List.map_map.trans (List.map_id'' bitData_getLsbD_zero s.bits)
  exact ⟨rws, by simp only [readBits, hrws, hback]⟩

/-- The body of a frame as the candidate that matched shows it (42_validate.md R165, R170). -/
def State.body (s : State) : List Byte := (s.fb.take (s.fcnt - 2)).map (candidateByte s.vrev)

/-- The host reads the validated body (60_exceptions.md R230). -/
theorem readBody_eq (hok : s.vres = .ok) (hblen : s.blen.toNat = s.fcnt - 2) :
    ∃ rws, readBody s = (s.setRsps rws, s.body) := by
  have hread (k : Nat) (d : Data) (rws : List Word) (hd : (s.body.map byteData)[k]? = some d) :
      exec (.rdbody (BitVec.ofNat 16 k)) (s.setRsps rws) = .next ((s.setRsps rws).respond (okWord d)) := by
    rw [State.body, List.getElem?_map, List.getElem?_map, Option.map_map, Option.map_eq_some_iff] at hd
    obtain ⟨b, hb, rfl⟩ := hd
    obtain ⟨hk, hfb⟩ := Option.ite_none_right_eq_some.1 (List.getElem?_take ▸ hb)
    have hindex : (BitVec.ofNat 16 k).toNat = k := by
      have := s.blen.isLt
      exact Nat.mod_eq_of_lt (by omega)
    have hexec := exec_rdbody_of_byte (s := s.setRsps rws) (h := BitVec.ofNat 16 k) hok
      (by rw [hindex]; exact hk.trans_eq hblen.symm) (by rw [hindex]; exact hfb)
    rwa [← okWord_byteData] at hexec
  obtain ⟨rws, hrws⟩ := readAll_eq hread
  have hlength : (s.body.map byteData).length = s.blen.toNat := by
    simp [State.body, State.fcnt, hblen]
  rw [hlength] at hrws
  have hback : (s.body.map byteData).map (fun d => d.setWidth 8) = s.body :=
    List.map_map.trans (List.map_id'' byteData_setWidth s.body)
  exact ⟨rws, by simp only [readBody, hrws, hback]⟩

end ReadBack

/-! ### A unit of the wire format -/

@[simp] theorem wireCharacter_length (b : Byte) : (wireCharacter b).length = 10 := rfl

@[simp] theorem wirePayload_length (text : List Byte) : (wirePayload text).length = text.length + 2 := by
  simp [wirePayload]

theorem flatMap_wireCharacter_length (m : List Byte) : (m.flatMap wireCharacter).length = 10 * m.length := by
  simp [List.length_flatMap, Nat.mul_comm]

/-- Packing the bits of a byte gives the byte (41_extract.md R149). -/
theorem packBits_msbBits (b : Byte) : packBits (msbBits b) = b := by
  obtain ⟨e7, e6, e5, e4, e3, e2, e1, e0⟩ := packBits_getLsbD (b.getLsbD 7) (b.getLsbD 6) (b.getLsbD 5)
    (b.getLsbD 4) (b.getLsbD 3) (b.getLsbD 2) (b.getLsbD 1) (b.getLsbD 0)
  refine BitVec.eq_of_getLsbD_eq fun k hk => ?_
  interval_cases k
  exacts [e0, e1, e2, e3, e4, e5, e6, e7]

/-- The halves of the checksum, side by side, are the checksum (20_memory.md R64). -/
theorem extractLsb'_append_halves (c : Half) : c.extractLsb' 8 8 ++ c.extractLsb' 0 8 = c := by
  apply BitVec.eq_of_toNat_eq
  have := c.isLt
  rw [toNat_append_eq_add, BitVec.extractLsb'_toNat, BitVec.extractLsb'_toNat, Nat.shiftRight_zero,
    Nat.shiftRight_eq_div_pow]
  omega

/-- Where a character of the wire format stands, the extractor reads it back. -/
theorem characterAt?_of_wireCharacter {bits rest : List Bool} {p : Nat} {b : Byte}
    (h : bits.drop p = wireCharacter b ++ rest) :
    characterAt? bits p = some { start := false, data := b, stop := true } := by
  rw [characterAt?, h]
  exact congrArg (fun d => some (Character.mk false d true)) (packBits_msbBits b)

/-- The loop stores the payload and nothing behind it: the postamble's 1 is no start bit, whatever room and
bits are left (41_extract.md R143). -/
theorem extractLoop_bytes_of_wire {bits rest : List Bool} {payload : List Byte} {room p : Nat}
    (h : bits.drop p = payload.flatMap wireCharacter ++ true :: rest) (hroom : payload.length ≤ room) :
    (extractLoop bits room p).bytes = payload := by
  induction payload generalizing room p with
  | nil =>
    cases room with
    | zero => rfl
    | succ room =>
      cases hc : characterAt? bits p with
      | none => rw [extractLoop_succ_of_none hc]
      | some c =>
        obtain ⟨-, hstart, -⟩ := characterAt?_fields hc
        have hone : bits[p]? = some true := by rw [← List.head?_drop, h]; rfl
        have hc1 : c.start = true := Option.some.inj (hstart.symm.trans hone)
        rw [extractLoop_succ_of_not_framed hc (by simp [hc1])]
  | cons b payload ih =>
    obtain _ | room := room
    · exact absurd hroom (Nat.not_succ_le_zero _)
    rw [List.flatMap_cons, List.append_assoc] at h
    have hnext : bits.drop (p + charBits) = payload.flatMap wireCharacter ++ true :: rest := by
      rw [← List.drop_drop, h, charBits, ← wireCharacter_length b, List.drop_left]
    rw [extractLoop_succ_of_framed (characterAt?_of_wireCharacter h) rfl rfl,
      ih hnext (Nat.le_of_succ_le_succ hroom)]

/-- The sender's trailer is the checksum of the text as parsed, with initial value 0 (42_validate.md R166,
R167). -/
theorem judge_wirePayload {text : List Byte} (h : 1 ≤ text.length) :
    judge (wirePayload text) =
      { vres := .ok, vrev := false, vinit := false, blen := BitVec.ofNat 16 text.length } := by
  have hmatch : matchesTrailer (candidate false (wirePayload text)) false = true := by
    rw [wirePayload, matchesTrailer_candidate]
    exact (extractLsb'_append_halves _).trans (congrArg (crc16 _) (List.map_id text).symm)
  have hfirst : firstMatch? (wirePayload text) = some (false, false) := by rw [firstMatch?_eq, if_pos hmatch]
  rw [judge_of_firstMatch (by rw [wirePayload_length]; omega) hfirst, wirePayload_length, Nat.add_sub_cancel]

/-- EXTRACT at the first start bit of a unit stores the payload (41_extract.md R143). -/
theorem extracted_fb_of_wireUnit {s : State} {idx : Data} {front back : List Bool} {pre post : Nat}
    {text : List Byte} (hbits : s.bits = front ++ (wireUnit pre post text ++ back)) (hpost : 1 ≤ post)
    (hidx : idx.toNat = front.length + pre) (hcap : text.length + 2 ≤ s.maxb.toNat) :
    (extracted idx s).fb = wirePayload text := by
  obtain ⟨post, rfl⟩ := Nat.exists_eq_add_of_le' hpost
  have hsplit : s.bits = (front ++ List.replicate pre true) ++
      ((wirePayload text).flatMap wireCharacter ++ true :: (List.replicate post true ++ back)) := by
    simp [hbits, wireUnit, List.replicate_succ]
  have hlength : idx.toNat = (front ++ List.replicate pre true).length := by simp [hidx]
  refine extractLoop_bytes_of_wire (rest := List.replicate post true ++ back) ?_
    ((wirePayload_length text).trans_le hcap)
  rw [hsplit, hlength, List.drop_left]

/-! ### The obligations -/

/-- Settles O48: both loops, and within the invariant the body is the frame without its trailer. -/
theorem hostReadsBackTheBitsAndTheBody : Obligations.HostReadsBackTheBitsAndTheBody := by
  intro s hinv
  refine ⟨?_, fun hok => ?_⟩
  · obtain ⟨rws, h⟩ := readBits_eq hinv.lengths_fit.1
    exact ⟨_, h, rfl⟩
  · obtain ⟨-, -, -, hbody, -⟩ := hinv
    obtain ⟨-, hblen, -⟩ := hbody hok
    obtain ⟨rws, h⟩ := readBody_eq hok hblen
    exact ⟨_, h, rfl⟩

/-- Settles O50: EXTRACT stores the payload, VALIDATE finds its trailer to be the checksum, and the text is
the body. -/
theorem wireFormatRoundTrip : Obligations.WireFormatRoundTrip := by
  intro s idx front back pre post text hinv hbits hpost hidx htext hcap
  have hfb := extracted_fb_of_wireUnit hbits hpost hidx hcap
  have hjudge := hfb ▸ judge_wirePayload htext
  have hblen : (BitVec.ofNat 16 text.length).toNat = text.length := by
    have := s.maxb.isLt
    exact Nat.mod_eq_of_lt (by omega)
  refine ⟨_, _, exec_extract_eq idx s, exec_validate_of_judge hjudge, rfl, rfl, rfl, hblen, fun h b hb => ?_⟩
  obtain ⟨hlt, -⟩ := List.getElem?_eq_some_iff.1 hb
  refine exec_rdbody_of_byte rfl (hlt.trans_eq hblen.symm) ?_
  show (extracted idx s).fb[h.toNat]? = some b
  rw [hfb, wirePayload, List.getElem?_append_left hlt, hb]

/-- Settles O49: ten bits for each byte of the payload. -/
theorem wireUnitLength : Obligations.WireUnitLength := by
  intro pre post text
  rw [wireUnit, List.length_append, List.length_append, List.length_replicate, List.length_replicate,
    flatMap_wireCharacter_length, wirePayload_length, Nat.add_assoc]

end Sys2Proof.Machine
end

section
/-! Reset and the hazards between commands (70_reset_and_hazards.md R250, R257, R262): a full label store,
a body that EXTRACT has invalidated, and the state a hardware reset leaves. -/

namespace Sys2Proof.Machine

section Hazards

variable {s t u : State}

/-- An accepted word other than INIT's leaves a full store full and its labels as they are
(40_capture.md R121). -/
theorem acceptWord_keeps_full {w : Word} (hfull : s.len = s.cfg.ldepth.toNat) (h : acceptWord w s = .next t)
    (hw : w ≠ 0x10000000) : t.lbl = s.lbl ∧ t.len = t.cfg.ldepth.toNat := by
  obtain ⟨i, hdec, e⟩ | ⟨_, -, e⟩ := acceptWord_cases w s
  · have hi : i ≠ .init := fun hi => hw (eq_initWord_of_decode (hi ▸ hdec))
    obtain ⟨u, rw, hu, rfl⟩ := exec_eq_next (e.symm.trans h)
    exact ⟨hu.lbl_eq_of_full hfull hi, hu.full hfull hi⟩
  · cases e.symm.trans h
    exact ⟨rfl, hfull⟩

/-- So does every step but INIT and a hardware reset (70_reset_and_hazards.md R262). -/
theorem step_keeps_full (hfull : s.len = s.cfg.ldepth.toNat) (h : step s = .next t)
    (hreset : ∀ running presented rest, s.cmds ≠ .hardReset running presented :: rest)
    (hinit : ∀ rest, s.cmds ≠ .command 0x10000000 :: rest) : t.lbl = s.lbl ∧ t.len = t.cfg.ldepth.toNat := by
  cases hcmds : s.cmds with
  | nil =>
    cases (step_of_nil hcmds).symm.trans h
    exact ⟨rfl, hfull⟩
  | cons ev rest =>
    have hev : acceptEvent ev (s.setCmds rest) = .next t := (step_of_cons hcmds).symm.trans h
    cases ev with
    | hardReset running presented => exact absurd hcmds (hreset running presented rest)
    | command w =>
      exact acceptWord_keeps_full (s := s.setCmds rest) hfull hev fun hw => hinit rest (hw ▸ hcmds)

/-- CAPT's word on a full store is refused with OVF (40_capture.md R121). -/
theorem step_capt_of_full {b : Bool} {rest : List HostEvent} (hfull : s.len = s.cfg.ldepth.toNat)
    (hcmds : s.cmds = .command (encode (.capt b)) :: rest) :
    step s = .next { s with cmds := rest, err := s.err ||| 0b100, rsps := s.rsps ++ [0xB0000000] } :=
  calc step s = exec (.capt b) (s.setCmds rest) :=
        stepRunsTheDecodedCommand s _ rest _ hcmds (decode_encode _)
    _ = _ := exec_capt_of_full (s := s.setCmds rest) b hfull

/-- A command other than VALIDATE keeps VRES or, as EXTRACT and INIT do, writes NONE (10_state.md R31). -/
theorem MayWrite.vres_eq_or_eq_none {i : Instr} (h : MayWrite s i u) (hv : i ≠ .validate) :
    u.vres = s.vres ∨ u.vres = .none := by
  cases h with
  | validate => exact absurd rfl hv
  | extract idx => exact .inr rfl
  | init => exact .inr rfl
  | _ => exact .inl rfl

/-- Clearing gives the reset state, but for the parameters and the port (10_state.md R42). -/
theorem clear_eq_reset (s : State) :
    s.clear = { State.reset with cfg := s.cfg, maxb := s.cfg.fdepth, cmds := s.cmds, rsps := s.rsps } := rfl

end Hazards

/-! ### The obligations -/

/-- Settles O20: every step but INIT and a hardware reset keeps a full store, and CAPT is refused on it. -/
theorem fullLabelStoreStaysFull : Obligations.FullLabelStoreStaysFull := by
  intro s t hfull h hreset hinit
  obtain ⟨hlbl, hlen⟩ := step_keeps_full hfull h hreset hinit
  exact ⟨hlbl, hlen, fun b rest hcmds =>
    Host.Outcome.next.inj (h.symm.trans (step_capt_of_full hfull hcmds))⟩

/-- Settles O37: EXTRACT writes NONE to VRES, RDBODY checks VRES first, and only VALIDATE writes OK. -/
theorem extractInvalidatesTheBody : Obligations.ExtractInvalidatesTheBody := by
  refine ⟨fun s idx => ⟨_, exec_extract_eq idx s, rfl⟩, fun s h hno => exec_rdbody_of_no_byte (.inl hno),
    fun s t i hno hv h => ?_⟩
  obtain ⟨u, rw, hu, rfl⟩ := exec_eq_next h
  rw [State.respond_vres]
  obtain hkept | hnone := hu.vres_eq_or_eq_none hv
  · rwa [hkept]
  · rw [hnone]
    decide

/-- Settles O12: a hardware reset clears the state, whatever is running or presented, and returns nothing. -/
theorem hardResetAbandonsTheRunningCommand : Obligations.HardResetAbandonsTheRunningCommand := by
  intro s running presented rest hcmds
  calc step s = .next (s.setCmds rest).clear := step_of_cons hcmds
    _ = _ := congrArg Host.Outcome.next (clear_eq_reset (s.setCmds rest))

end Sys2Proof.Machine
end
